-- ==== Sys2Proof/Word.lean ====
section
/-! DEFINITION. The two word types of the block. -/

namespace Sys2Proof

/-- The addressable unit of the store and the width of a Code: 8 bits (`20_memory.md` R50, `30_encoding.md` R80). -/
abbrev Byte := BitVec 8

/-- The stimulus word, `stim[5:0]` (`30_encoding.md` R70). -/
abbrev Stim := BitVec 6

end Sys2Proof
end

