-- ==== Sys2Proof/Config.lean ====
section
/-! DEFINITION. The parameters of the block (`00_scope.md` section 3, `92_eei_decisions.md` section 1).
They are plain data; `Sys2Proof/WellFormed.lean` holds their constraints. -/

namespace Sys2Proof

/-- What an implementation fixes and the launch parameter (R6, R7, R8, R11). -/
structure Config where
  /-- `N`, the debounce depth and the width of `hist` (R6). -/
  depth : Nat
  /-- `MARKER`, the two high-order bits of a Code byte (R7). -/
  marker : BitVec 2
  /-- `TIMER_STEP`, timer counts between two firings (R8). -/
  timerStep : Nat
  /-- `TIMEOUT_TICKS`, watchdog ticks after which an entry is aborted (R8). -/
  timeoutTicks : Nat
  /-- `TW`, the width of `tcnt` and `tcmp` (R8). -/
  timerWidth : Nat
  /-- `nv0`, what the store holds before the block has written it (R11). -/
  nv0 : Byte
deriving DecidableEq, Repr

/-- `CODE_LEN`, fixed (R5). -/
def codeLen : Nat := 6

/-- `STORE_ADDR`, the address of the one byte of the store, fixed (R10, R51). -/
def storeAddr : Nat := 23

/-- `INIT = zext_8(MARKER)` (R7). -/
def Config.init (c : Config) : Byte := c.marker.setWidth 8

/-- The named test configuration `CFG_T` (R8) launched with store content `nv0`. -/
def Config.cfgT (nv0 : Byte) : Config :=
  { depth := 8, marker := 0b11#2, timerStep := 4, timeoutTicks := 3, timerWidth := 16, nv0 := nv0 }

end Sys2Proof
end

