-- ==== Sys2Proof/Syntax.lean ====
section
/-! DEFINITION. The operations of one clock cycle: one constructor per row of the opcode table
(`30_encoding.md` R72). `k1`, `k2` are the key lines, true when held (R40, R77). -/

namespace Sys2Proof

inductive Instr where
  /-- `POR` (R230). -/
  | por
  /-- `IDLE` (R74). -/
  | idle
  /-- `POLL k1,k2` (R160). -/
  | poll (k1 k2 : Bool)
  /-- `TMR` (R120). -/
  | tmr
  /-- `TMR+POLL k1,k2` (R75). -/
  | tmrPoll (k1 k2 : Bool)
  /-- `DONE` (R147). -/
  | done
  /-- `DONE+POLL k1,k2` (R75). -/
  | donePoll (k1 k2 : Bool)
  /-- `DONE+TMR` (R75). -/
  | doneTmr
  /-- `DONE+TMR+POLL k1,k2` (R75). -/
  | doneTmrPoll (k1 k2 : Bool)
deriving DecidableEq, Repr

/-- The mnemonic of an operation, as the opcode map spells it (R72, R90). -/
def Instr.mnemonic : Instr → String
  | .por => "POR"
  | .idle => "IDLE"
  | .poll _ _ => "POLL"
  | .tmr => "TMR"
  | .tmrPoll _ _ => "TMR+POLL"
  | .done => "DONE"
  | .donePoll _ _ => "DONE+POLL"
  | .doneTmr => "DONE+TMR"
  | .doneTmrPoll _ _ => "DONE+TMR+POLL"

end Sys2Proof
end

