-- ==== Sys2Proof/WellFormed.lean ====
section
/-! DEFINITION. The constraints on the parameters (`00_scope.md` R6 to R8). Operations need no check:
their operands are two booleans and "no stimulus word is illegal" (`30_encoding.md` R85). -/

namespace Sys2Proof

/-- `N >= 1` (R6). -/
def Config.depthOk (c : Config) : Bool := decide (1 ≤ c.depth)

/-- `MARKER != 0b00` (R7). -/
def Config.markerOk (c : Config) : Bool := decide (c.marker ≠ 0#2)

/-- `1 <= TIMEOUT_TICKS <= 255` (R8). -/
def Config.timeoutOk (c : Config) : Bool := decide (1 ≤ c.timeoutTicks ∧ c.timeoutTicks ≤ 255)

/-- `1 <= TIMER_STEP <= 2^TW - 1` (R8); it implies `TW >= 1`. -/
def Config.timerOk (c : Config) : Bool := decide (1 ≤ c.timerStep ∧ c.timerStep < 2 ^ c.timerWidth)

/-- Every constraint of R6, R7 and R8. A machine outside them is refused
(`93_implementation_defined.md` V6; log 7). -/
def Config.wf (c : Config) : Bool := c.depthOk && c.markerOk && c.timeoutOk && c.timerOk

/-- Every operation is well-formed: `k1`, `k2` take both values and no word is illegal (R77, R85). -/
def Instr.wf : Instr → Bool
  | .por => true
  | .idle => true
  | .poll _ _ => true
  | .tmr => true
  | .tmrPoll _ _ => true
  | .done => true
  | .donePoll _ _ => true
  | .doneTmr => true
  | .doneTmrPoll _ _ => true

end Sys2Proof
end

