-- ==== Sys2Proof/Decode.lean ====
section
/-! DEFINITION. The stimulus word: fields (`30_encoding.md` R70), decoding (R71, R72), its byte
form, and the encoder to canonical words (R71). -/

namespace Sys2Proof

/-! ## Fields of the word (R70) -/

def Stim.por (w : Stim) : Bool := w.getLsbD 5
def Stim.indDone (w : Stim) : Bool := w.getLsbD 4
def Stim.tmrEn (w : Stim) : Bool := w.getLsbD 3
def Stim.pollEn (w : Stim) : Bool := w.getLsbD 2
def Stim.k1 (w : Stim) : Bool := w.getLsbD 1
def Stim.k2 (w : Stim) : Bool := w.getLsbD 0

/-! ## Decoding (R72) -/

/-- Total: every one of the 64 words is in exactly one class (R72, R85), in every state (R89). Bits
that R71 calls unread are not looked at. -/
def decode (w : Stim) : Instr :=
  if Stim.por w then .por
  else
    match Stim.indDone w, Stim.tmrEn w, Stim.pollEn w with
    | false, false, false => .idle
    | false, false, true => .poll (Stim.k1 w) (Stim.k2 w)
    | false, true, false => .tmr
    | false, true, true => .tmrPoll (Stim.k1 w) (Stim.k2 w)
    | true, false, false => .done
    | true, false, true => .donePoll (Stim.k1 w) (Stim.k2 w)
    | true, true, false => .doneTmr
    | true, true, true => .doneTmrPoll (Stim.k1 w) (Stim.k2 w)

/-- Why a byte sequence is no operation. -/
inductive DecodeError where
  /-- No byte is left to read. -/
  | noWord
  /-- Bits 7:6 of the byte are not 0, so the byte is not the two-digit form of a word (R70; log 10). -/
  | bitsAboveWord
deriving DecidableEq, Repr

/-- One operation from the front of a byte sequence, each byte the two-digit form of one word, bits 7:6
zero (R70; one word length, R89). -/
def decodeBytes : List Byte → Except DecodeError (Instr × List Byte)
  | [] => .error .noWord
  | b :: rest =>
    if b.toNat < 64 then .ok (decode (b.setWidth 6), rest) else .error .bitsAboveWord

/-- The operation of an instruction whose bits are `w`, numbered as the opcode table numbers them (its
6 bits in one byte). Bits from `nbits` up are 0 by convention. -/
def decodeTableWord (nbits w : Nat) : Option Instr :=
  let v := w % 2 ^ nbits
  if v < 64 then
    match decodeBytes [BitVec.ofNat 8 v] with
    | .ok (i, _) => some i
    | .error _ => none
  else none

/-! ## Encoding -/

/-- A word from its six fields (R70). -/
def stimWord (por indDone tmrEn pollEn k1 k2 : Bool) : Stim :=
  BitVec.ofBool por ++ BitVec.ofBool indDone ++ BitVec.ofBool tmrEn ++ BitVec.ofBool pollEn ++
    BitVec.ofBool k1 ++ BitVec.ofBool k2

/-- The canonical word of an operation: its class's match with every unread bit 0 (R71, R72). -/
def encode : Instr → Stim
  | .por => stimWord true false false false false false
  | .idle => stimWord false false false false false false
  | .poll k1 k2 => stimWord false false false true k1 k2
  | .tmr => stimWord false false true false false false
  | .tmrPoll k1 k2 => stimWord false false true true k1 k2
  | .done => stimWord false true false false false false
  | .donePoll k1 k2 => stimWord false true false true k1 k2
  | .doneTmr => stimWord false true true false false false
  | .doneTmrPoll k1 k2 => stimWord false true true true k1 k2

/-- The byte form of the canonical word (R70). -/
def encodeByte (i : Instr) : Byte := (encode i).setWidth 8

/-- A word with its unread bits set to 0 (R71). -/
def canonicalWord (w : Stim) : Stim :=
  if Stim.por w then 0x20#6 else if Stim.pollEn w then w else w &&& 0x3C#6

/-! ## The opcode map (R72), row by row as the spec prints it -/

/-- One row of the opcode map. -/
structure OpcodeRow where
  mnemonic : String
  mask : Stim
  pattern : Stim
deriving DecidableEq, Repr

/-- The nine classes of R72. -/
def opcodeMap : List OpcodeRow :=
  [ ⟨"POR", 0x20#6, 0x20#6⟩,
    ⟨"IDLE", 0x3C#6, 0x00#6⟩,
    ⟨"POLL", 0x3C#6, 0x04#6⟩,
    ⟨"TMR", 0x3C#6, 0x08#6⟩,
    ⟨"TMR+POLL", 0x3C#6, 0x0C#6⟩,
    ⟨"DONE", 0x3C#6, 0x10#6⟩,
    ⟨"DONE+POLL", 0x3C#6, 0x14#6⟩,
    ⟨"DONE+TMR", 0x3C#6, 0x18#6⟩,
    ⟨"DONE+TMR+POLL", 0x3C#6, 0x1C#6⟩ ]

/-- A word is in a class when `(w & mask) == match` (R72). -/
def OpcodeRow.matchesWord (r : OpcodeRow) (w : Stim) : Bool := w &&& r.mask == r.pattern

end Sys2Proof
end

