-- ==== Sys2Proof/Machine/State.lean ====
section
/-! DEFINITION. The state of the machine (`10_state.md`), its reset, and why a step may stop. -/

namespace Sys2Proof.Machine

/-! ## Enumerations. Codes that no rule produces are unrepresentable (`30_encoding.md` R88; log 9).
Their pin codes stand in `Operands.lean`. -/

/-- `phase` (R31). -/
inductive Phase where
  | boot
  | bypass
  | run
deriving DecidableEq, Repr

/-- The Mode latch (R32). -/
inductive Mode where
  | unlocked
  | locked
deriving DecidableEq, Repr

/-- `fb`, the feedback sub-state (R33). -/
inductive Feedback where
  | none
  | timeoutAbort
  | errorFeedback
deriving DecidableEq, Repr

/-- The visual states of the indicator, in the source's order (`42_feedback.md` R140). -/
inductive VisualState where
  | red
  | blue
  | green
  | yellow
  | off
  | yellowStrobeWithRed
  | yellowStrobeNoRed
deriving DecidableEq, Repr

/-! ## The store -/

/-- The persistent store (`20_memory.md` R50): (address, byte) pairs. An address not listed reads as
`Config.nv0` if it is `storeAddr` and does not exist otherwise (R11, R51; log 11). -/
abbrev Memory := List Host.Cell

/-- The canonical form: addresses strictly rising, only addresses that exist, no entry equal to what the
address reads as when it is not listed. -/
def Memory.wf (unlisted : Byte) (m : Memory) : Bool :=
  decide (m.Pairwise fun x y => x.1 < y.1) && m.all fun x => x.1 == storeAddr && x.2 != unlisted

/-! ## Outputs -/

/-- The one-cycle outputs of R41 in the latest cycle (log 5). `nv_we` is whether `nvWrite` holds a byte,
`nv_wdata` that byte (log 6). -/
structure Outputs where
  pressConfirmed : Bool
  releaseConfirmed : Bool
  wdIrq : Bool
  entryTimedOut : Bool
  nvWrite : Option Byte
  nvRe : Bool
  indWrites : List VisualState
deriving DecidableEq, Repr

/-- Every event output 0 and `ind_writes` empty (R41, R74, R230). -/
def Outputs.quiet : Outputs :=
  { pressConfirmed := false, releaseConfirmed := false, wdIrq := false, entryTimedOut := false,
    nvWrite := none, nvRe := false, indWrites := [] }

/-! ## Registers -/

/-- The registers, the store and the outputs of a block with parameters `c`. -/
structure Block (c : Config) where
  /-- Sample history, newest in bit 0 (R21). -/
  hist : BitVec c.depth
  /-- A press is confirmed and not yet released (R22). -/
  pressed : Bool
  /-- The digit of the key last confirmed: key-1 is 1 (R23). -/
  keyDown : Bool
  /-- The Code accumulator (R24). -/
  acc : Byte
  /-- Entries so far; 6 and 7 are never held (R25, R88; log 8). -/
  count : Fin 6
  phase : Phase
  mode : Mode
  fb : Feedback
  /-- "Entry in progress" (R34). -/
  gate : Bool
  /-- Watchdog ticks since the last confirmed release (R35). -/
  ticks : Byte
  /-- The free-running timer counter (R36). -/
  tcnt : BitVec c.timerWidth
  /-- The compare threshold (R37). -/
  tcmp : BitVec c.timerWidth
  /-- The indicator latch (R38). -/
  ind : VisualState
  /-- The persistent store, `nv` at address 23 (R39). -/
  store : Memory
  /-- One-cycle outputs (R41). -/
  out : Outputs
deriving DecidableEq, Repr

/-- The reset table (`10_state.md` section 9, `70_reset_and_hazards.md` R230) over a store that reset
does not change. -/
def Block.reset (c : Config) (store : Memory) : Block c :=
  { hist := 0#c.depth
    pressed := false
    keyDown := false
    acc := c.init
    count := 0
    phase := .boot
    mode := .locked
    fb := .none
    gate := false
    ticks := 0#8
    tcnt := 0#c.timerWidth
    tcmp := BitVec.ofNat c.timerWidth c.timerStep
    ind := .off
    store := store
    out := Outputs.quiet }

/-- The machine: its parameters, which no step writes (R20), the block, and the stimulus words of the
coming cycles, first one next (R70, R91; log 3). -/
structure State where
  cfg : Config
  block : Block cfg
  stim : List Stim
deriving DecidableEq, Repr

/-- The first power-up of a block with parameters `c`: right after the `POR` that R233 (a) asks for, the
store as found (`nv0`), no stimulus listed (log 15). -/
def State.powerUp (c : Config) : State := { cfg := c, block := Block.reset c [], stim := [] }

/-- The state after reset. The open parameters have no value in the spec: DESIGN CHOICE `CFG_T` (log 1)
and `nv0 = 0x00` (log 2). -/
def State.reset : State := State.powerUp (Config.cfgT 0x00#8)

/-! ## Stops -/

/-- No operation can fault (`60_exceptions.md` R200), so there is no fault (log 12). Safe: nothing is claimed of a
machine that stops. -/
inductive Fault
deriving DecidableEq, Repr

/-- Why a step answers no state. -/
inductive Refusal where
  /-- An operation without a meaning; no arm of `exec` raises it any more. Safe. -/
  | notModelled (mnemonic : String)
  /-- Raised by `step` alone, on parameters outside their constraints (`93_implementation_defined.md` V6;
  log 7). Safe: the machine stops where the spec describes no block. -/
  | badConfiguration
deriving DecidableEq, Repr

end Sys2Proof.Machine
end

