-- ==== Sys2Proof/Machine/Operands.lean ====
section
/-! DEFINITION. Operand assembly (`30_encoding.md` R77), the datapath's shifts, and the data encodings
(R80 to R82). -/

namespace Sys2Proof.Machine

/-! ## The operands of POLL (R77) -/

/-- The debouncer's sample `s = k1 | k2`. -/
def sample (k1 k2 : Bool) : Bool := k1 || k2

/-- The key identity of a confirmed press, as the digit it contributes: key-1 has priority (R77, R81,
R103). -/
def keyDigit (k1 _k2 : Bool) : Bool := k1

/-! ## Shifts -/

/-- `((hist << 1) | zext_N(s))[N-1:0]` (R101). -/
def shiftHist {n : Nat} (h : BitVec n) (s : Bool) : BitVec n :=
  (h <<< 1) ||| (BitVec.ofBool s).setWidth n

/-- `((acc << 1)[7:0]) | zext_8(digit)` (R169, R177). -/
def shiftAcc (a : Byte) (digit : Bool) : Byte := (a <<< 1) ||| (BitVec.ofBool digit).setWidth 8

/-! ## The Code byte (R80) -/

/-- The accumulator after the given digits, first entered first: `zext_8({MARKER, d1..dk})`. -/
def codeByte (c : Config) (digits : List Bool) : Byte := digits.foldl shiftAcc c.init

/-! ## Register encodings at the pins (R82) -/

def Phase.code : Phase → BitVec 2
  | .boot => 0#2
  | .bypass => 1#2
  | .run => 2#2

def Mode.code : Mode → BitVec 1
  | .unlocked => 0#1
  | .locked => 1#1

def Feedback.code : Feedback → BitVec 2
  | .none => 0#2
  | .timeoutAbort => 1#2
  | .errorFeedback => 2#2

def VisualState.code : VisualState → BitVec 3
  | .red => 0#3
  | .blue => 1#3
  | .green => 2#3
  | .yellow => 3#3
  | .off => 4#3
  | .yellowStrobeWithRed => 5#3
  | .yellowStrobeNoRed => 6#3

/-! ## The registered outputs (R41) -/

/-- `ind[2:0]`. -/
def Block.indCode {c : Config} (b : Block c) : BitVec 3 := b.ind.code

/-- `mode_q`. -/
def Block.modeQ {c : Config} (b : Block c) : BitVec 1 := b.mode.code

/-- `run_q = (phase == RUN)`, the qualifier of `mode_q`. -/
def Block.runQ {c : Config} (b : Block c) : Bool := b.phase == .run

end Sys2Proof.Machine
end

