-- ==== Sys2Proof/Machine/Flags.lean ====
section
/-! DEFINITION. The tests the block makes on its registers (`43_lock_fsm.md` R177 (e)) and its event
outputs (`10_state.md` R41, `60_exceptions.md` R201). -/

namespace Sys2Proof.Machine

variable {c : Config}

/-! ## Tests -/

/-- `hist == ones_N`: the most recent N samples are all held (R101). -/
def allHeld {n : Nat} (hist : BitVec n) : Bool := hist == BitVec.allOnes n

/-- `hist == zeros_N`: the most recent N samples are all not held (R101). -/
def allReleased {n : Nat} (hist : BitVec n) : Bool := hist == 0#n

/-- `tcnt == tcmp`, all TW bits (R122). -/
def compareMatch {n : Nat} (tcnt tcmp : BitVec n) : Bool := tcnt == tcmp

/-- `ticks >= TIMEOUT_TICKS` (R124). -/
def timeoutReached (c : Config) (ticks : Byte) : Bool := decide (c.timeoutTicks ≤ ticks.toNat)

/-! ## Events: each drives its output 1 for the cycle and goes on (R15) -/

/-- `raise PressConfirmed` (R103). -/
def raisePressConfirmed (b : Block c) : Block c := { b with out := { b.out with pressConfirmed := true } }

/-- `raise ReleaseConfirmed` (R104). -/
def raiseReleaseConfirmed (b : Block c) : Block c := { b with out := { b.out with releaseConfirmed := true } }

/-- `raise WdIrq` (R120). -/
def raiseWdIrq (b : Block c) : Block c := { b with out := { b.out with wdIrq := true } }

/-- `raise EntryTimedOut` (R125). -/
def raiseEntryTimedOut (b : Block c) : Block c := { b with out := { b.out with entryTimedOut := true } }

/-! ## The outputs of a cycle -/

/-- A cycle begins with every one-cycle output inactive (R41; log 5). -/
def beginCycle (b : Block c) : Block c := { b with out := Outputs.quiet }

/-- The outputs of two micro-operations of one cycle together: the union of the events, the indicator
writes in order (R73). At most one of them writes the store, since only POLL does (R55). -/
def Outputs.union (first second : Outputs) : Outputs :=
  { pressConfirmed := first.pressConfirmed || second.pressConfirmed
    releaseConfirmed := first.releaseConfirmed || second.releaseConfirmed
    wdIrq := first.wdIrq || second.wdIrq
    entryTimedOut := first.entryTimedOut || second.entryTimedOut
    nvWrite := second.nvWrite.or first.nvWrite
    nvRe := first.nvRe || second.nvRe
    indWrites := first.indWrites ++ second.indWrites }

end Sys2Proof.Machine
end

