-- ==== Sys2Proof/Machine/Ops.lean ====
section
/-! DEFINITION. The named operations over the store, the indicator and the sequencer that the meanings
share: MemRead and MemWrite, `emit`, the entry into a feedback sub-state and the return from it, and one
clock cycle. -/

namespace Sys2Proof.Machine

variable {c : Config}

/-! ## The store (`20_memory.md`) -/

/-- The byte an address of the store holds, `unlisted` if the address is not listed. -/
def Memory.byteAt (unlisted : Byte) (m : Memory) (a : Nat) : Byte := (m.lookup a).getD unlisted

/-- A read of one byte: an address other than `storeAddr` does not exist (R51; log 11). -/
def Memory.read (unlisted : Byte) (m : Memory) (a : Nat) : Option Byte :=
  if a = storeAddr then some (m.byteAt unlisted a) else none

/-- A write of one byte, which keeps the list sorted and lists no unlisted value. -/
def Memory.write (unlisted : Byte) : Memory → Nat → Byte → Memory
  | [], a, v => if v = unlisted then [] else [(a, v)]
  | (a', v') :: rest, a, v =>
    if a < a' then (if v = unlisted then (a', v') :: rest else (a, v) :: (a', v') :: rest)
    else if a = a' then (if v = unlisted then rest else (a, v) :: rest)
    else (a', v') :: Memory.write unlisted rest a v

/-- `nv`, the register at address 23 (`10_state.md` R39). -/
def Block.nv (b : Block c) : Byte := Memory.byteAt c.nv0 b.store storeAddr

/-- `load()` = `MemRead(23, 1)`: the current `nv`, with `nv_re = 1` (R52). -/
def load (b : Block c) : Byte × Block c := (b.nv, { b with out := { b.out with nvRe := true } })

/-- `save(v)` = `MemWrite(23, 1, v)`: `nv <- v`, with `nv_we = 1` and `nv_wdata = v` (R53). -/
def save (v : Byte) (b : Block c) : Block c :=
  { b with store := Memory.write c.nv0 b.store storeAddr v, out := { b.out with nvWrite := some v } }

/-- `clear()` = `MemWrite(23, 1, 0x00)` (R54). -/
def clear (b : Block c) : Block c := save 0x00#8 b

/-! ## The indicator (`42_feedback.md` R142) -/

/-- `emit ind <- X`: the latch takes the state, the cycle's list records it. -/
def emit (x : VisualState) (b : Block c) : Block c :=
  { b with ind := x, out := { b.out with indWrites := b.out.indWrites ++ [x] } }

/-! ## Abort entry and return (`60_exceptions.md` sections 4 and 5) -/

/-- The entry, by either cause, into a feedback sub-state: the pending code is emptied, the watchdog
disarmed, the strobe commanded, and nothing is saved (R205, R206; the assignments of `41_watchdog.md`
R125 and `43_lock_fsm.md` R173). `mode` and `phase` keep their values. -/
def enterFeedback (f : Feedback) (strobe : VisualState) (b : Block c) : Block c :=
  emit strobe { b with gate := false, ticks := 0#8, count := 0, acc := c.init, fb := f }

/-- `EntryTimeout()` (`41_watchdog.md` R125). -/
def entryTimeout (b : Block c) : Block c :=
  enterFeedback .timeoutAbort .yellowStrobeNoRed (raiseEntryTimedOut b)

/-- `Mismatch()` (`43_lock_fsm.md` R173). -/
def mismatch (b : Block c) : Block c := enterFeedback .errorFeedback .yellowStrobeWithRed b

/-- The return: `fb <- NONE`, nothing restored (`60_exceptions.md` R207). -/
def leaveFeedback (b : Block c) : Block c := { b with fb := .none }

/-! ## One clock cycle -/

/-- One cycle that applies `f`: the outputs of the previous cycle end, then `f` acts, and every assignment
is committed together (`00_scope.md` R13, R15). -/
def runCycle (s : State) (f : Block s.cfg → Block s.cfg) : Host.Outcome State Fault Refusal :=
  .next { s with block := f (beginCycle s.block) }

end Sys2Proof.Machine
end

