-- ==== Sys2Proof/Machine/Feedback.lean ====
section
/-! DEFINITION. The micro-operation `DONE` (`42_feedback.md` R147, R148). -/

namespace Sys2Proof.Machine

variable {c : Config}

/-- `DONE` in a cycle whose registered `fb`, the one it acts on (`30_encoding.md` R73), is `registered`:
`fb <- NONE` if a strobe is outstanding, nothing otherwise. -/
def doneOn (registered : Feedback) (b : Block c) : Block c :=
  if registered = .none then b else leaveFeedback b

/-- `DONE`, the first micro-operation of its cycle, so that the registered `fb` is the block's. -/
def done (b : Block c) : Block c := doneOn b.fb b

/-- Meaning of `DONE` (R147, R148). -/
def execDone (s : State) : Host.Outcome State Fault Refusal := runCycle s done

end Sys2Proof.Machine
end

