-- ==== Sys2Proof/Machine/Debouncer.lean ====
section
/-! DEFINITION. `Debounce(k1, k2)` (`40_debouncer.md` R101). -/

namespace Sys2Proof.Machine

variable {c : Config}

/-- What `Debounce` returns (R101). -/
inductive KeyEvent where
  | pressConfirmed
  | releaseConfirmed
  | none
deriving DecidableEq, Repr

/-- `Debounce(k1, k2)`: the tests are made on the history after the shift (R101 to R104). -/
def debounce (k1 k2 : Bool) (b : Block c) : KeyEvent × Block c :=
  let h := shiftHist b.hist (sample k1 k2)
  if allHeld h && !b.pressed then
    (.pressConfirmed, raisePressConfirmed { b with hist := h, pressed := true, keyDown := keyDigit k1 k2 })
  else if allReleased h && b.pressed then
    (.releaseConfirmed, raiseReleaseConfirmed { b with hist := h, pressed := false })
  else (.none, { b with hist := h })

end Sys2Proof.Machine
end

