-- ==== Sys2Proof/Machine/LockFsm.lean ====
section
/-! DEFINITION. The lock state machine: the micro-operation `POLL(k1, k2)` (`43_lock_fsm.md`). -/

namespace Sys2Proof.Machine

variable {c : Config}

/-! ## Entering a mode -/

/-- `EnterUnlocked()` (R163). -/
def enterUnlocked (b : Block c) : Block c :=
  { clear b with acc := c.init, count := 0, gate := false, ticks := 0#8, mode := .unlocked }

/-- `EnterLocked()` (R164). -/
def enterLocked (b : Block c) : Block c :=
  { b with acc := c.init, count := 0, gate := false, ticks := 0#8, mode := .locked }

/-! ## Boot and bypass -/

/-- `BootStep(k1, k2)`: the stored byte is always read, the key lines are read raw (R165). -/
def bootStep (k1 k2 : Bool) (b : Block c) : Block c :=
  let (v, b1) := load b
  if sample k1 k2 then { b1 with phase := .bypass }
  else if v ≠ 0x00#8 then enterLocked { b1 with phase := .run }
  else enterUnlocked { b1 with phase := .run }

/-- `BypassStep(k1, k2)` (R166). -/
def bypassStep (k1 k2 : Bool) (b : Block c) : Block c :=
  match debounce k1 k2 b with
  | (.releaseConfirmed, b1) => enterUnlocked { b1 with phase := .run }
  | (.pressConfirmed, b1) => b1
  | (.none, b1) => b1

/-! ## The running step -/

/-- `CompleteLock()`, six entries in mode Unlocked (R170). -/
def completeLock (b : Block c) : Block c := enterLocked (save b.acc b)

/-- `CompleteAttempt()`, six entries in mode Locked (R171). -/
def completeAttempt (b : Block c) : Block c :=
  let (v, b1) := load b
  if v = b1.acc then enterUnlocked b1 else mismatch b1

/-- `Accumulate()` (R169). The incremented count 6 exists only here: each completion sets `count` to 0
(R25; log 8). -/
def accumulate (b : Block c) : Block c :=
  let b1 := { b with acc := shiftAcc b.acc b.keyDown, gate := true, ticks := 0#8 }
  if h : b.count.val + 1 < codeLen then { b1 with count := ⟨b.count.val + 1, h⟩ }
  else
    match b1.mode with
    | .unlocked => completeLock b1
    | .locked => completeAttempt b1

/-- The background of the Mode at the start of the step (R167; `42_feedback.md` R143 (a), R144). -/
def background (b : Block c) : Block c :=
  match b.mode with
  | .unlocked => emit .yellow (emit .green b)
  | .locked => emit .red b

/-- `RunStep(k1, k2)` (R167, R168). -/
def runStep (k1 k2 : Bool) (b : Block c) : Block c :=
  match debounce k1 k2 (background b) with
  | (.pressConfirmed, b1) => emit .blue b1
  | (.releaseConfirmed, b1) => accumulate b1
  | (.none, b1) => b1

/-- The micro-operation `POLL(k1, k2)` (R160, R161). -/
def poll (k1 k2 : Bool) (b : Block c) : Block c :=
  if b.fb = .none then
    match b.phase with
    | .boot => bootStep k1 k2 b
    | .bypass => bypassStep k1 k2 b
    | .run => runStep k1 k2 b
  else b

/-- Meaning of `POLL k1,k2` (R160). -/
def execPoll (k1 k2 : Bool) (s : State) : Host.Outcome State Fault Refusal := runCycle s (poll k1 k2)

end Sys2Proof.Machine
end

