-- ==== Sys2Proof/Machine/Watchdog.lean ====
section
/-! DEFINITION. The watchdog: `WdTick()` and the micro-operation `TMR` (`41_watchdog.md`). -/

namespace Sys2Proof.Machine

variable {c : Config}

/-- `WdTick()`, the body of the timer interrupt (R124). -/
def wdTick (b : Block c) : Block c :=
  if b.gate then
    let ticks := b.ticks + 1#8
    if timeoutReached c ticks then entryTimeout { b with ticks := ticks } else { b with ticks := ticks }
  else b

/-- The micro-operation `TMR` (R120): count, and at a compare match advance the threshold, signal the
interrupt and run its body to completion. -/
def tmr (b : Block c) : Block c :=
  let tcnt := b.tcnt + 1#c.timerWidth
  if compareMatch tcnt b.tcmp then
    wdTick (raiseWdIrq { b with tcnt := tcnt, tcmp := b.tcmp + BitVec.ofNat c.timerWidth c.timerStep })
  else { b with tcnt := tcnt }

/-- Meaning of `TMR` (R120). -/
def execTmr (s : State) : Host.Outcome State Fault Refusal := runCycle s tmr

end Sys2Proof.Machine
end

