-- ==== Sys2Proof/Machine/Composite.lean ====
section
/-! DEFINITION. The composite classes: the micro-operations they name, in the order `DONE`, `TMR`, `POLL`
(`30_encoding.md` R73, R75). -/

namespace Sys2Proof.Machine

/-- Meaning of `TMR+POLL k1,k2`. -/
def execTmrPoll (k1 k2 : Bool) (s : State) : Host.Outcome State Fault Refusal :=
  runCycle s fun b => poll k1 k2 (tmr b)

/-- Meaning of `DONE+POLL k1,k2`. -/
def execDonePoll (k1 k2 : Bool) (s : State) : Host.Outcome State Fault Refusal :=
  runCycle s fun b => poll k1 k2 (done b)

/-- Meaning of `DONE+TMR`. -/
def execDoneTmr (s : State) : Host.Outcome State Fault Refusal := runCycle s fun b => tmr (done b)

/-- Meaning of `DONE+TMR+POLL k1,k2`. -/
def execDoneTmrPoll (k1 k2 : Bool) (s : State) : Host.Outcome State Fault Refusal :=
  runCycle s fun b => poll k1 k2 (tmr (done b))

end Sys2Proof.Machine
end

