-- ==== Sys2Proof/Machine/Reset.lean ====
section
/-! DEFINITION. `POR` (`70_reset_and_hazards.md` R230) and `IDLE` (`30_encoding.md` R74). -/

namespace Sys2Proof.Machine

variable {c : Config}

/-- `POR`: every volatile register takes its reset value, the store keeps its content, no output is
driven. -/
def por (b : Block c) : Block c := Block.reset c b.store

/-- Meaning of `POR` (R230). -/
def execPor (s : State) : Host.Outcome State Fault Refusal := runCycle s por

/-- Meaning of `IDLE`: no register and no store byte changes, every output is inactive (R74). -/
def execIdle (s : State) : Host.Outcome State Fault Refusal := runCycle s fun b => b

end Sys2Proof.Machine
end

