-- ==== Sys2Proof/Machine/Dispatch.lean ====
section
/-! DEFINITION. One arm per operation. -/

namespace Sys2Proof.Machine

def exec (i : Instr) (s : State) : Host.Outcome State Fault Refusal :=
  match i with
  | .por => Sys2Proof.Machine.execPor s
  | .idle => Sys2Proof.Machine.execIdle s
  | .poll k1 k2 => Sys2Proof.Machine.execPoll k1 k2 s
  | .tmr => Sys2Proof.Machine.execTmr s
  | .tmrPoll k1 k2 => Sys2Proof.Machine.execTmrPoll k1 k2 s
  | .done => Sys2Proof.Machine.execDone s
  | .donePoll k1 k2 => Sys2Proof.Machine.execDonePoll k1 k2 s
  | .doneTmr => Sys2Proof.Machine.execDoneTmr s
  | .doneTmrPoll k1 k2 => Sys2Proof.Machine.execDoneTmrPoll k1 k2 s

end Sys2Proof.Machine
end

