-- ==== Sys2Proof/Machine/Fetch.lean ====
section
/-! DEFINITION. The stimulus word of the coming cycle (`30_encoding.md` R70; log 3). -/

namespace Sys2Proof.Machine

/-- The values of the six input lines in the coming cycle: the first listed word, and all lines low (the
word of `IDLE`) when none is listed (DESIGN CHOICE, log 3). -/
def nextWord (s : State) : Stim := s.stim.headD 0#6

/-- The state with the coming cycle's word taken off the list. -/
def dropWord (s : State) : State := { s with stim := s.stim.tail }

/-- The state with `w` as the coming cycle's word, in place of the word that stood there (log 4). -/
def placeWord (s : State) (w : Stim) : State := { s with stim := w :: s.stim.tail }

/-- A word from the table's numbering: bits from `nbits` up are 0, and the six lines are bits 5..0 (R70). -/
def wordOfTable (nbits w : Nat) : Stim := BitVec.ofNat 6 (w % 2 ^ nbits)

end Sys2Proof.Machine
end

