-- ==== Sys2Proof/Machine/Step.lean ====
section
/-! DEFINITION. One step is one clock cycle (`00_scope.md` R15). -/

namespace Sys2Proof.Machine

/-- One clock cycle: the coming stimulus word is taken, decoded and applied. A machine whose parameters are
outside their constraints is refused (`93_implementation_defined.md` V6; log 7). -/
def step (s : State) : Host.Outcome State Fault Refusal :=
  if s.cfg.wf then exec (decode (nextWord s)) (dropWord s) else .refused .badConfiguration

/-- `s` with the word `w` on the input lines in the coming cycle, in place of the word that stood there
(log 4). -/
def State.withFetchWord (s : State) (nbits w : Nat) : State :=
  placeWord s (wordOfTable nbits w)

end Sys2Proof.Machine
end

