-- ==== Sys2Proof/Machine/Pseudo.lean ====
section
/-! DEFINITION. The pseudo-operations of `30_encoding.md` R91 as lists of canonical words. -/

namespace Sys2Proof.Machine

/-- An operation repeated, as its canonical words (`POLL 1,0 x8`, R90). -/
def wordsOf (i : Instr) (n : Nat) : List Stim := List.replicate n (encode i)

def hold1 (n : Nat) : List Stim := wordsOf (.poll true false) n
def hold2 (n : Nat) : List Stim := wordsOf (.poll false true) n
def holdB (n : Nat) : List Stim := wordsOf (.poll true true) n
def rel (n : Nat) : List Stim := wordsOf (.poll false false) n
def press1 (c : Config) : List Stim := hold1 c.depth
def press2 (c : Config) : List Stim := hold2 c.depth
def release (c : Config) : List Stim := rel c.depth
def key1 (c : Config) : List Stim := press1 c ++ release c
def key2 (c : Config) : List Stim := press2 c ++ release c
def wdFire (c : Config) : List Stim := wordsOf .tmr c.timerStep
def wdTimeout (c : Config) : List Stim := (List.replicate c.timeoutTicks (wdFire c)).flatten
def boot0 : List Stim := [encode .por, encode (.poll false false)]

/-- The key sequence of a list of digits: `KEY1` for 1, `KEY2` for 0 (R81, R91). -/
def keys (c : Config) (digits : List Bool) : List Stim :=
  digits.flatMap fun d => if d then key1 c else key2 c

end Sys2Proof.Machine
end

