-- ==== Sys2Proof/Safety.lean ====
section
/-! DEFINITION. What the claims are made of: the invariants I1 to I10 of `10_state.md` R42, and the
agreement of two blocks up to their one-cycle outputs. -/

namespace Sys2Proof

open Sys2Proof.Machine

variable {c : Config}

/-- R42, I1 to I10, numbered as there. -/
structure Invariants (b : Block c) : Prop where
  i1 : b.fb ≠ .none → b.phase = .run ∧ b.gate = false ∧ b.ticks = 0#8 ∧ b.count = 0 ∧ b.acc = c.init
  i2 : b.phase ≠ .run → b.fb = .none ∧ b.gate = false ∧ b.ticks = 0#8 ∧ b.count = 0 ∧ b.acc = c.init ∧
    b.mode = .locked ∧ b.ind = .off
  i3 : b.gate = true ↔ 1 ≤ b.count.val ∧ b.count.val ≤ 5
  i4 : b.ticks.toNat < c.timeoutTicks ∧ (b.gate = false → b.ticks = 0#8)
  i5 : b.count.val ≤ 5
  /-- `acc[7:count+2] == 0` and `acc[count+1:count] == MARKER`. -/
  i6 : b.acc >>> b.count.val = c.init
  i7 : b.phase = .run → b.mode = .unlocked → b.nv = 0x00#8
  i8 : b.nv = c.nv0 ∨ b.nv = 0x00#8 ∨ b.nv.extractLsb' 6 2 = c.marker
  i9 : 1 ≤ (b.tcmp - b.tcnt).toNat ∧ (b.tcmp - b.tcnt).toNat ≤ c.timerStep
  i10 : b.fb = .errorFeedback → b.mode = .locked

/-- A state as `POR` and the steps after it leave it: parameters within their constraints, the store in its
canonical form, and R42. -/
structure Inv (s : State) : Prop where
  cfgWf : s.cfg.wf = true
  storeWf : Memory.wf s.cfg.nv0 s.block.store = true
  invariants : Invariants s.block

/-- The registers and the store without the one-cycle outputs. -/
def registers (b : Block c) : Block c := beginCycle b

/-- What the machine answers after the cycles of a stimulus sequence `ws`, from `s`. -/
def afterWords (s : State) (ws : List Stim) : Host.Outcome State Fault Refusal :=
  core.run ws.length { s with stim := ws }

/-- No cycle of the stimulus sequence `ws`, from `s`, writes the store. -/
def neverWrites : State → List Stim → Bool
  | _, [] => true
  | s, w :: ws =>
    match step { s with stim := [w] } with
    | .next t => t.block.out.nvWrite == none && neverWrites t ws
    | .fault _ => false
    | .refused _ => false

/-- The words of a stimulus sequence that are not `IDLE` (R74). -/
def withoutIdle (ws : List Stim) : List Stim := ws.filter fun w => decode w ≠ .idle

/-- The key lines an operation reads, if it polls (R77). -/
def pollKeys : Instr → Option (Bool × Bool)
  | .por => none
  | .idle => none
  | .poll k1 k2 => some (k1, k2)
  | .tmr => none
  | .tmrPoll k1 k2 => some (k1, k2)
  | .done => none
  | .donePoll k1 k2 => some (k1, k2)
  | .doneTmr => none
  | .doneTmrPoll k1 k2 => some (k1, k2)

/-! ## What a polling tick meets, written out from the rules -/

/-- The history after the shift of a polling tick, `((hist << 1) | zext_N(k1 | k2))[N-1:0]` (R101). -/
def histAfter (b : Block c) (k1 k2 : Bool) : BitVec c.depth :=
  (b.hist <<< 1) ||| (BitVec.ofBool (k1 || k2)).setWidth c.depth

/-- The condition of `PressConfirmed` (R103). -/
abbrev PressNow (b : Block c) (k1 k2 : Bool) : Prop :=
  histAfter b k1 k2 = BitVec.allOnes c.depth ∧ b.pressed = false

/-- The condition of `ReleaseConfirmed` (R104). -/
abbrev ReleaseNow (b : Block c) (k1 k2 : Bool) : Prop :=
  histAfter b k1 k2 = 0#c.depth ∧ b.pressed = true

/-- The conditions of an entry that completes no code (R169). -/
abbrev EntryNow (b : Block c) (k1 k2 : Bool) : Prop :=
  b.fb = .none ∧ b.phase = .run ∧ ReleaseNow b k1 k2 ∧ b.count.val < 5

/-- The accumulator with the recorded digit shifted in, `((acc << 1)[7:0]) | zext_8(key_down)` (R169). -/
def accAfter (b : Block c) : Byte := (b.acc <<< 1) ||| (BitVec.ofBool b.keyDown).setWidth 8

/-- The conditions of `Mismatch` (R171, R173). -/
abbrev MismatchNow (b : Block c) (k1 k2 : Bool) : Prop :=
  b.fb = .none ∧ b.phase = .run ∧ b.mode = .locked ∧ ReleaseNow b k1 k2 ∧ b.count.val = 5 ∧
    b.nv ≠ accAfter b

/-- The condition of a compare match in the coming `TMR` (R122). -/
abbrev MatchNow (b : Block c) : Prop := b.tcnt + 1#c.timerWidth = b.tcmp

/-- The condition, at a compare match, of `EntryTimeout` (R124). -/
abbrev TimeoutDue (b : Block c) : Prop := b.gate = true ∧ c.timeoutTicks ≤ (b.ticks + 1#8).toNat

/-- The background commands of a Mode (R143 (a)). -/
def backgroundWrites : Mode → List VisualState
  | .unlocked => [.green, .yellow]
  | .locked => [.red]

/-- The visual state the background leaves in the latch (R142, R144). -/
def backgroundShown : Mode → VisualState
  | .unlocked => .yellow
  | .locked => .red

/-- The Code byte `{MARKER, d1, d2, d3, d4, d5, d6}` (R80). -/
def markedCode (c : Config) (d1 d2 d3 d4 d5 d6 : Bool) : Byte :=
  c.marker ++ BitVec.ofBool d1 ++ BitVec.ofBool d2 ++ BitVec.ofBool d3 ++ BitVec.ofBool d4 ++
    BitVec.ofBool d5 ++ BitVec.ofBool d6

/-! ## The transition table (R176) -/

/-- The sequencer state (R30). -/
def sequencer (b : Block c) : Phase × Mode × Feedback := (b.phase, b.mode, b.fb)

/-- `43_lock_fsm.md` R176, row by row, for the single micro-operations; everywhere else the sequencer state
stays. -/
def sequencerTable (b : Block c) : Instr → Phase × Mode × Feedback
  | .por => (.boot, .locked, .none)
  | .poll k1 k2 =>
    match sequencer b with
    | (.boot, .locked, .none) =>
      if (k1 || k2) = true then (.bypass, .locked, .none)
      else if b.nv ≠ 0x00#8 then (.run, .locked, .none) else (.run, .unlocked, .none)
    | (.bypass, .locked, .none) =>
      if ReleaseNow b k1 k2 then (.run, .unlocked, .none) else sequencer b
    | (.run, .unlocked, .none) =>
      if ReleaseNow b k1 k2 ∧ b.count = 5 then (.run, .locked, .none) else sequencer b
    | (.run, .locked, .none) =>
      if ReleaseNow b k1 k2 ∧ b.count = 5 then
        (if b.nv = accAfter b then (.run, .unlocked, .none) else (.run, .locked, .errorFeedback))
      else sequencer b
    | other => other
  | .tmr =>
    match sequencer b with
    | (.run, m, .none) =>
      if b.gate = true ∧ b.tcnt + 1#c.timerWidth = b.tcmp ∧ c.timeoutTicks ≤ b.ticks.toNat + 1 then
        (.run, m, .timeoutAbort)
      else (.run, m, .none)
    | other => other
  | .done =>
    match sequencer b with
    | (.run, m, .timeoutAbort) => (.run, m, .none)
    | (.run, .locked, .errorFeedback) => (.run, .locked, .none)
    | other => other
  | .idle => sequencer b
  | .tmrPoll _ _ => sequencer b
  | .donePoll _ _ => sequencer b
  | .doneTmr => sequencer b
  | .doneTmrPoll _ _ => sequencer b

/-! ## The countdown -/

/-- Timer counts until the next compare match (R42 I9). -/
def countsToMatch (b : Block c) : Nat := (b.tcmp - b.tcnt).toNat

/-- Timer counts until the entry in progress times out if no release is confirmed before (`41_watchdog.md`
R129). -/
def countsToTimeout (b : Block c) : Nat :=
  countsToMatch b + (c.timeoutTicks - 1 - b.ticks.toNat) * c.timerStep

end Sys2Proof
end

