-- ==== Sys2Proof/Certificates/Slice0/Obligations.lean ====
section
/-! DEFINITION. The statements about the PBS lock core, from the numbered rules of `spec/`. The block `b`,
its parameters `c` and the words `q` still listed are arbitrary unless a hypothesis says otherwise. -/

open Sys2Proof Sys2Proof.Machine

/-! ## Encoding -/

/-- Words of the nine classes, from the opcode map and `95_test_vectors.md`. -/
def Obligations.SpecWordsDecode : Prop :=
  decode 0x20#6 = .por ∧ decode 0x3F#6 = .por ∧ decode 0x00#6 = .idle ∧ decode 0x03#6 = .idle ∧
  decode 0x04#6 = .poll false false ∧ decode 0x05#6 = .poll false true ∧
  decode 0x06#6 = .poll true false ∧ decode 0x07#6 = .poll true true ∧
  decode 0x08#6 = .tmr ∧ decode 0x0B#6 = .tmr ∧ decode 0x0C#6 = .tmrPoll false false ∧
  decode 0x10#6 = .done ∧ decode 0x16#6 = .donePoll true false ∧ decode 0x18#6 = .doneTmr ∧
  decode 0x1D#6 = .doneTmrPoll false true

/-- Every word is in exactly one class of the opcode map, the class of the operation it decodes to. -/
def Obligations.EveryWordInExactlyOneClass : Prop :=
  ∀ w : Stim, (opcodeMap.filter fun r => r.matchesWord w).map (·.mnemonic) = [(decode w).mnemonic]

/-- Decoding an encoded operation gives it back, in word, byte and table form; encoding a decoded word
gives its canonical form. -/
def Obligations.DecodeEncodeAgree : Prop :=
  (∀ (i : Instr) (rest : List Byte), decode (encode i) = i ∧
      decodeBytes (encodeByte i :: rest) = .ok (i, rest) ∧
      decodeTableWord 8 (encode i).toNat = some i) ∧
  (∀ w : Stim, encode (decode w) = canonicalWord w)

/-- R71. -/
def Obligations.UnreadBitsAreIgnored : Prop :=
  (∀ v w : Stim, Stim.por v = true → Stim.por w = true → decode v = decode w) ∧
  (∀ v w : Stim, Stim.por w = false → Stim.pollEn w = false → v &&& 0x3C#6 = w &&& 0x3C#6 →
    decode v = decode w) ∧
  (∀ w : Stim, decode (canonicalWord w) = decode w) ∧
  (∀ i : Instr, canonicalWord (encode i) = encode i)

/-! ## The step and the order within a cycle -/

/-- A step takes the word at the head of the list and runs the operation it decodes to. -/
def Obligations.StepRunsTheDecodedWord : Prop :=
  ∀ (c : Config) (b : Block c) (w : Stim) (rest : List Stim), c.wf = true →
    step ⟨c, b, w :: rest⟩ = exec (decode w) ⟨c, b, rest⟩

/-- The model's choice (log 3): with no word listed the six lines are low, which is `IDLE`. -/
def Obligations.NoListedWordIsIdle : Prop :=
  ∀ (c : Config) (b : Block c), c.wf = true → step ⟨c, b, []⟩ = exec .idle ⟨c, b, []⟩

/-- R85: every word is an operation and every operation completes, in every state. -/
def Obligations.EveryWordRuns : Prop :=
  ∀ (c : Config) (b : Block c) (w : Stim) (rest : List Stim), c.wf = true →
    ∃ b' : Block c, step ⟨c, b, w :: rest⟩ = .next ⟨c, b', rest⟩

/-- `93_implementation_defined.md` V6: parameters outside R6, R7, R8 are refused by name. -/
def Obligations.BadConfigurationRefused : Prop :=
  ∀ s : State,
    (s.cfg.depth = 0 ∨ s.cfg.marker = 0#2 ∨ s.cfg.timeoutTicks = 0 ∨ 255 < s.cfg.timeoutTicks ∨
      s.cfg.timerStep = 0 ∨ 2 ^ s.cfg.timerWidth ≤ s.cfg.timerStep) →
    step s = .refused .badConfiguration

/-- R73: `POR` excludes the rest; otherwise the enabled micro-operations apply in the order `DONE`, `TMR`,
`POLL`, each from the state the one before left, and the outputs are their union. -/
def Obligations.CycleAppliesEnabledMicroOps : Prop :=
  ∀ (c : Config) (b : Block c) (q : List Stim) (w : Stim),
    (Stim.por w = true → exec (decode w) ⟨c, b, q⟩ = exec .por ⟨c, b, q⟩) ∧
    (Stim.por w = false → ∃ b1 b2 b3 : Block c,
      exec (if Stim.indDone w then .done else .idle) ⟨c, b, q⟩ = .next ⟨c, b1, q⟩ ∧
      exec (if Stim.tmrEn w then .tmr else .idle) ⟨c, b1, q⟩ = .next ⟨c, b2, q⟩ ∧
      exec (if Stim.pollEn w then .poll (Stim.k1 w) (Stim.k2 w) else .idle) ⟨c, b2, q⟩
        = .next ⟨c, b3, q⟩ ∧
      exec (decode w) ⟨c, b, q⟩
        = .next ⟨c, { b3 with out := (b1.out.union b2.out).union b3.out }, q⟩)

/-- R75: each composite is its micro-operations in consecutive cycles, the outputs united. -/
def Obligations.CompositeIsConsecutiveCycles : Prop :=
  ∀ (c : Config) (b : Block c) (q : List Stim) (k1 k2 : Bool),
    (∃ b1 b2 : Block c, exec .tmr ⟨c, b, q⟩ = .next ⟨c, b1, q⟩ ∧
      exec (.poll k1 k2) ⟨c, b1, q⟩ = .next ⟨c, b2, q⟩ ∧
      exec (.tmrPoll k1 k2) ⟨c, b, q⟩ = .next ⟨c, { b2 with out := b1.out.union b2.out }, q⟩) ∧
    (∃ b1 b2 : Block c, exec .done ⟨c, b, q⟩ = .next ⟨c, b1, q⟩ ∧
      exec (.poll k1 k2) ⟨c, b1, q⟩ = .next ⟨c, b2, q⟩ ∧
      exec (.donePoll k1 k2) ⟨c, b, q⟩ = .next ⟨c, { b2 with out := b1.out.union b2.out }, q⟩) ∧
    (∃ b1 b2 : Block c, exec .done ⟨c, b, q⟩ = .next ⟨c, b1, q⟩ ∧
      exec .tmr ⟨c, b1, q⟩ = .next ⟨c, b2, q⟩ ∧
      exec .doneTmr ⟨c, b, q⟩ = .next ⟨c, { b2 with out := b1.out.union b2.out }, q⟩) ∧
    (∃ b1 b2 b3 : Block c, exec .done ⟨c, b, q⟩ = .next ⟨c, b1, q⟩ ∧
      exec .tmr ⟨c, b1, q⟩ = .next ⟨c, b2, q⟩ ∧
      exec (.poll k1 k2) ⟨c, b2, q⟩ = .next ⟨c, b3, q⟩ ∧
      exec (.doneTmrPoll k1 k2) ⟨c, b, q⟩
        = .next ⟨c, { b3 with out := (b1.out.union b2.out).union b3.out }, q⟩)

/-- R76's "`DONE` and `TMR` commute", in the model's reading (log 16): within one cycle, where by R73 `DONE` "acts on
the registered `fb` of the cycle's start", in `DONE+TMR` and in `DONE+TMR+POLL`, timeout or not. -/
def Obligations.DoneAndTmrCommuteWithinACycle : Prop :=
  ∀ (c : Config) (b : Block c) (q : List Stim) (k1 k2 : Bool), Inv ⟨c, b, q⟩ →
    exec .doneTmr ⟨c, b, q⟩ = .next ⟨c, doneOn b.fb (tmr (beginCycle b)), q⟩ ∧
    exec (.doneTmrPoll k1 k2) ⟨c, b, q⟩ = .next ⟨c, poll k1 k2 (doneOn b.fb (tmr (beginCycle b))), q⟩

/-- In consecutive cycles, where the second of the two finds the `fb` the first left, `DONE` and `TMR` commute
unless the `TMR` times out. Then `TMR` first and `DONE` after ends the strobe just begun (R147;
`95_test_vectors.md`, program P4, words 84 and 85), and `DONE` first leaves it outstanding (vector W2 after a
`DONE` that did nothing), so that R76's "commute" is not meant of two cycles (DEDUCED, log 16). -/
def Obligations.DoneAndTmrCommuteUnlessItTimesOut : Prop :=
  ∀ (c : Config) (b : Block c) (q : List Stim), Inv ⟨c, b, q⟩ →
    ∃ d t dt td : Block c,
      exec .done ⟨c, b, q⟩ = .next ⟨c, d, q⟩ ∧ exec .tmr ⟨c, d, q⟩ = .next ⟨c, dt, q⟩ ∧
      exec .tmr ⟨c, b, q⟩ = .next ⟨c, t, q⟩ ∧ exec .done ⟨c, t, q⟩ = .next ⟨c, td, q⟩ ∧
      (t.out.entryTimedOut = false → registers dt = registers td) ∧
      (t.out.entryTimedOut = true → dt.fb = .timeoutAbort ∧ td.fb = .none)

/-- R76 says that `DONE` before `POLL` matters; when it does is the model's reading, from the pseudocode of R147,
R161 and R173 (log 16). In two consecutive cycles, their outputs united as in a composite, the two orders differ
exactly when a strobe is outstanding or the `POLL` begins one. -/
def Obligations.DoneBeforePollMattersExactlyHere : Prop :=
  ∀ (c : Config) (b : Block c) (q : List Stim) (k1 k2 : Bool), Inv ⟨c, b, q⟩ →
    ∃ d p dp pd : Block c,
      exec .done ⟨c, b, q⟩ = .next ⟨c, d, q⟩ ∧ exec (.poll k1 k2) ⟨c, d, q⟩ = .next ⟨c, dp, q⟩ ∧
      exec (.poll k1 k2) ⟨c, b, q⟩ = .next ⟨c, p, q⟩ ∧ exec .done ⟨c, p, q⟩ = .next ⟨c, pd, q⟩ ∧
      ({ dp with out := d.out.union dp.out } ≠ { pd with out := p.out.union pd.out } ↔
        b.fb ≠ .none ∨ MismatchNow b k1 k2)

/-- The conditions of R120, R124 and R169 written out on the state before both (DEDUCED, log 16). In two
consecutive cycles, their outputs united as in a composite, the two orders of `TMR` and `POLL` differ exactly
when the `TMR` is a compare match and either it times out, or the `POLL` makes an entry that completes no
code. -/
def Obligations.TmrBeforePollMattersExactlyHere : Prop :=
  ∀ (c : Config) (b : Block c) (q : List Stim) (k1 k2 : Bool), Inv ⟨c, b, q⟩ →
    ∃ t p tp pt : Block c,
      exec .tmr ⟨c, b, q⟩ = .next ⟨c, t, q⟩ ∧ exec (.poll k1 k2) ⟨c, t, q⟩ = .next ⟨c, tp, q⟩ ∧
      exec (.poll k1 k2) ⟨c, b, q⟩ = .next ⟨c, p, q⟩ ∧ exec .tmr ⟨c, p, q⟩ = .next ⟨c, pt, q⟩ ∧
      ({ tp with out := t.out.union tp.out } ≠ { pt with out := p.out.union pt.out } ↔
        MatchNow b ∧ (TimeoutDue b ∨ EntryNow b k1 k2))

/-- R76's set, its `gate == 1` read at the `TMR` of the order of a cycle (log 16): what the watchdog tick of the
`TMR` wrote is overwritten by the `POLL` after it, or suspends that `POLL`, exactly when the `TMR` is a compare
match with `gate == 1` and the `POLL` raises `ReleaseConfirmed`, or the `TMR` times out. -/
def Obligations.TickOfTheTmrMeetsThePollExactlyHere : Prop :=
  ∀ (c : Config) (b : Block c) (q : List Stim) (k1 k2 : Bool), Inv ⟨c, b, q⟩ →
    ∃ t tp : Block c,
      exec .tmr ⟨c, b, q⟩ = .next ⟨c, t, q⟩ ∧ exec (.poll k1 k2) ⟨c, t, q⟩ = .next ⟨c, tp, q⟩ ∧
      (((t.ticks ≠ b.ticks ∧ tp.ticks ≠ t.ticks) ∨ t.fb ≠ b.fb) ↔
        (MatchNow b ∧ b.gate = true ∧ tp.out.releaseConfirmed = true) ∨ t.out.entryTimedOut = true) ∧
      (t.fb ≠ b.fb → registers tp = registers t)

/-- R76's set of two orders in consecutive cycles, as vectors B13 and B14 and programs P7 and P7b compare them: the
results, their outputs united as in a composite, differ exactly when the `TMR` is a compare match with `gate == 1`
and the `POLL` raises `ReleaseConfirmed`, or the `TMR` times out. `gate == 1` is read at the `TMR` that follows
the `POLL`, the timeout at the one before it (DEDUCED, log 16): a first release has opened the gate by then, a
sixth has closed it. -/
def Obligations.TmrAndPollOrdersDifferExactlyInTheSetOfR76 : Prop :=
  ∀ (c : Config) (b : Block c) (q : List Stim) (k1 k2 : Bool), Inv ⟨c, b, q⟩ →
    ∃ t p tp pt : Block c,
      exec .tmr ⟨c, b, q⟩ = .next ⟨c, t, q⟩ ∧ exec (.poll k1 k2) ⟨c, t, q⟩ = .next ⟨c, tp, q⟩ ∧
      exec (.poll k1 k2) ⟨c, b, q⟩ = .next ⟨c, p, q⟩ ∧ exec .tmr ⟨c, p, q⟩ = .next ⟨c, pt, q⟩ ∧
      ({ tp with out := t.out.union tp.out } ≠ { pt with out := p.out.union pt.out } ↔
        (MatchNow b ∧ p.gate = true ∧ p.out.releaseConfirmed = true) ∨ t.out.entryTimedOut = true)

/-- What the two orders give at a compare match and an entry that completes no code, the general form of vectors
B13 and B14 and of programs P7 and P7b: the timer first counts before the release restarts the count, or times
out and suspends the poll; the poll first makes the entry, and the tick then counts from 0. -/
def Obligations.TickAndReleaseInBothOrders : Prop :=
  ∀ (c : Config) (b : Block c) (q : List Stim) (k1 k2 : Bool), Inv ⟨c, b, q⟩ → MatchNow b →
    EntryNow b k1 k2 → ∃ t p tp pt : Block c,
      exec .tmr ⟨c, b, q⟩ = .next ⟨c, t, q⟩ ∧ exec (.poll k1 k2) ⟨c, t, q⟩ = .next ⟨c, tp, q⟩ ∧
      exec (.poll k1 k2) ⟨c, b, q⟩ = .next ⟨c, p, q⟩ ∧ exec .tmr ⟨c, p, q⟩ = .next ⟨c, pt, q⟩ ∧
      t.out.wdIrq = true ∧ p.out.releaseConfirmed = true ∧ pt.out.wdIrq = true ∧
      (TimeoutDue b → t.out.entryTimedOut = true ∧ tp.fb = .timeoutAbort ∧ tp.count = 0 ∧
        tp.acc = c.init ∧ tp.hist = b.hist ∧ tp.pressed = true ∧ tp.out = Outputs.quiet) ∧
      (¬ TimeoutDue b → t.out.entryTimedOut = false ∧ tp.fb = .none ∧
        tp.count.val = b.count.val + 1 ∧ tp.acc = accAfter b ∧ tp.gate = true ∧ tp.ticks = 0#8 ∧
        tp.out.releaseConfirmed = true) ∧
      (c.timeoutTicks = 1 → pt.out.entryTimedOut = true ∧ pt.fb = .timeoutAbort ∧ pt.count = 0 ∧
        pt.acc = c.init) ∧
      (1 < c.timeoutTicks → pt.out.entryTimedOut = false ∧ pt.fb = .none ∧
        pt.count.val = b.count.val + 1 ∧ pt.acc = accAfter b ∧ pt.gate = true ∧ pt.ticks = 1#8)

/-- R74: `IDLE` changes no register and no store byte and drives no output, and dropping `IDLE` words from a
sequence changes no later state. -/
def Obligations.IdleChangesNothingAndMayBeDropped : Prop :=
  (∀ (c : Config) (b : Block c) (q : List Stim),
    exec .idle ⟨c, b, q⟩ = .next ⟨c, { b with out := Outputs.quiet }, q⟩) ∧
  (∀ (s : State) (ws : List Stim), s.cfg.wf = true → ∃ b1 b2 : Block s.cfg,
    afterWords s ws = .next ⟨s.cfg, b1, []⟩ ∧
    afterWords s (withoutIdle ws) = .next ⟨s.cfg, b2, []⟩ ∧ registers b1 = registers b2)

/-! ## Reset -/

/-- R230: `POR`, from any state whatever. -/
def Obligations.PorResetsAllButTheStore : Prop :=
  ∀ (c : Config) (b : Block c) (q : List Stim),
    exec .por ⟨c, b, q⟩ = .next ⟨c,
      { hist := 0#c.depth, pressed := false, keyDown := false, acc := c.marker.setWidth 8, count := 0,
        phase := .boot, mode := .locked, fb := .none, gate := false, ticks := 0#8,
        tcnt := 0#c.timerWidth, tcmp := BitVec.ofNat c.timerWidth c.timerStep, ind := .off,
        store := b.store, out := Outputs.quiet }, q⟩

/-- The reset table at the first power-up, the store reading as `nv0` (`10_state.md` section 9), for every
choice of the parameters. That `State.reset` takes `CFG_T` and `nv0 = 0x00` is the model's choice
(log 1, log 2). -/
def Obligations.PowerUpHoldsTheResetTable : Prop :=
  (∀ c : Config, ∃ b : Block c, State.powerUp c = ⟨c, b, []⟩ ∧
    b.hist = 0#c.depth ∧ b.pressed = false ∧ b.keyDown = false ∧ b.acc = c.marker.setWidth 8 ∧
    b.count = 0 ∧ b.phase = .boot ∧ b.mode = .locked ∧ b.fb = .none ∧ b.gate = false ∧ b.ticks = 0#8 ∧
    b.tcnt = 0#c.timerWidth ∧ b.tcmp = BitVec.ofNat c.timerWidth c.timerStep ∧ b.ind = .off ∧
    b.out = Outputs.quiet ∧
    ∀ a : Nat, Memory.read c.nv0 b.store a = if a = 23 then some c.nv0 else none) ∧
  State.reset = State.powerUp (Config.cfgT 0x00#8)

/-! ## The lock state machine -/

/-- R161: while a strobe is outstanding a `POLL` changes nothing. -/
def Obligations.PollSuspendedDuringStrobe : Prop :=
  ∀ (c : Config) (b : Block c) (q : List Stim) (k1 k2 : Bool), b.fb ≠ .none →
    exec (.poll k1 k2) ⟨c, b, q⟩ = .next ⟨c, { b with out := Outputs.quiet }, q⟩

/-- R165: the `POLL` that finds phase BOOT. -/
def Obligations.BootStepDecides : Prop :=
  ∀ (c : Config) (b : Block c) (q : List Stim) (k1 k2 : Bool), b.phase = .boot → b.fb = .none →
    ((k1 || k2) = true → exec (.poll k1 k2) ⟨c, b, q⟩ = .next ⟨c,
      { b with phase := .bypass, out := { Outputs.quiet with nvRe := true } }, q⟩) ∧
    ((k1 || k2) = false → b.nv ≠ 0x00#8 → exec (.poll k1 k2) ⟨c, b, q⟩ = .next ⟨c,
      { b with phase := .run, mode := .locked, acc := c.init, count := 0, gate := false, ticks := 0#8,
               out := { Outputs.quiet with nvRe := true } }, q⟩) ∧
    ((k1 || k2) = false → b.nv = 0x00#8 → exec (.poll k1 k2) ⟨c, b, q⟩ = .next ⟨c,
      { b with phase := .run, mode := .unlocked, acc := c.init, count := 0, gate := false, ticks := 0#8,
               store := Memory.write c.nv0 b.store storeAddr 0x00#8,
               out := { Outputs.quiet with nvRe := true, nvWrite := some 0x00#8 } }, q⟩)

/-- R166: a `POLL` in phase BYPASS. -/
def Obligations.BypassWaitsForPressAndRelease : Prop :=
  ∀ (c : Config) (b : Block c) (q : List Stim) (k1 k2 : Bool), b.phase = .bypass → b.fb = .none →
    (PressNow b k1 k2 → exec (.poll k1 k2) ⟨c, b, q⟩ = .next ⟨c,
      { b with hist := histAfter b k1 k2, pressed := true, keyDown := k1,
               out := { Outputs.quiet with pressConfirmed := true } }, q⟩) ∧
    (ReleaseNow b k1 k2 → exec (.poll k1 k2) ⟨c, b, q⟩ = .next ⟨c,
      { b with hist := histAfter b k1 k2, pressed := false, phase := .run, mode := .unlocked,
               acc := c.init, count := 0, gate := false, ticks := 0#8,
               store := Memory.write c.nv0 b.store storeAddr 0x00#8,
               out := { Outputs.quiet with releaseConfirmed := true, nvWrite := some 0x00#8 } }, q⟩) ∧
    (¬ PressNow b k1 k2 → ¬ ReleaseNow b k1 k2 → exec (.poll k1 k2) ⟨c, b, q⟩ = .next ⟨c,
      { b with hist := histAfter b k1 k2, out := Outputs.quiet }, q⟩)

/-- The running step without an event: the sample is shifted in and the background of the Mode is
commanded (`43_lock_fsm.md` section 4). -/
def Obligations.QuietRunPollShowsBackground : Prop :=
  ∀ (c : Config) (b : Block c) (q : List Stim) (k1 k2 : Bool), b.phase = .run → b.fb = .none →
    ¬ PressNow b k1 k2 → ¬ ReleaseNow b k1 k2 →
    exec (.poll k1 k2) ⟨c, b, q⟩ = .next ⟨c,
      { b with hist := histAfter b k1 k2, ind := backgroundShown b.mode,
               out := { Outputs.quiet with indWrites := backgroundWrites b.mode } }, q⟩

/-- R168, with R103: a press confirmed in RUN. -/
def Obligations.PressInRunShowsBlue : Prop :=
  ∀ (c : Config) (b : Block c) (q : List Stim) (k1 k2 : Bool), b.phase = .run → b.fb = .none →
    PressNow b k1 k2 →
    exec (.poll k1 k2) ⟨c, b, q⟩ = .next ⟨c,
      { b with hist := histAfter b k1 k2, pressed := true, keyDown := k1, ind := .blue,
               out := { Outputs.quiet with
                 pressConfirmed := true, indWrites := backgroundWrites b.mode ++ [.blue] } }, q⟩

/-- R169: a release confirmed in RUN makes an entry; the sixth goes on to the completion of its Mode. -/
def Obligations.ReleaseInRunMakesAnEntry : Prop :=
  ∀ (c : Config) (b : Block c) (q : List Stim) (k1 k2 : Bool), b.phase = .run → b.fb = .none →
    ReleaseNow b k1 k2 →
    let entered : Block c :=
      { b with hist := histAfter b k1 k2, pressed := false, acc := accAfter b, gate := true,
               ticks := 0#8, ind := backgroundShown b.mode,
               out := { Outputs.quiet with
                 releaseConfirmed := true, indWrites := backgroundWrites b.mode } }
    (b.count.val < 5 → exec (.poll k1 k2) ⟨c, b, q⟩ = .next ⟨c, { entered with count := b.count + 1 }, q⟩) ∧
    (b.count.val = 5 → b.mode = .unlocked →
      exec (.poll k1 k2) ⟨c, b, q⟩ = .next ⟨c, completeLock entered, q⟩) ∧
    (b.count.val = 5 → b.mode = .locked →
      exec (.poll k1 k2) ⟨c, b, q⟩ = .next ⟨c, completeAttempt entered, q⟩)

/-- R170: the sixth entry in mode Unlocked saves the code and locks. -/
def Obligations.SixthEntryLocks : Prop :=
  ∀ (c : Config) (b : Block c) (q : List Stim) (k1 k2 : Bool), b.phase = .run → b.fb = .none →
    b.mode = .unlocked → ReleaseNow b k1 k2 → b.count.val = 5 →
    exec (.poll k1 k2) ⟨c, b, q⟩ = .next ⟨c,
      { b with hist := histAfter b k1 k2, pressed := false, acc := c.init, count := 0, gate := false,
               ticks := 0#8, mode := .locked, ind := .yellow,
               store := Memory.write c.nv0 b.store storeAddr (accAfter b),
               out := { Outputs.quiet with
                 releaseConfirmed := true, nvWrite := some (accAfter b), indWrites := [.green, .yellow] } }, q⟩

/-- R171 and R173: the sixth entry in mode Locked is compared with the stored byte; equal unlocks and clears
the store, different enters the error feedback. -/
def Obligations.CompletedAttemptIsCompared : Prop :=
  ∀ (c : Config) (b : Block c) (q : List Stim) (k1 k2 : Bool), b.phase = .run → b.fb = .none →
    b.mode = .locked → ReleaseNow b k1 k2 → b.count.val = 5 →
    (b.nv = accAfter b → exec (.poll k1 k2) ⟨c, b, q⟩ = .next ⟨c,
      { b with hist := histAfter b k1 k2, pressed := false, acc := c.init, count := 0, gate := false,
               ticks := 0#8, mode := .unlocked, ind := .red,
               store := Memory.write c.nv0 b.store storeAddr 0x00#8,
               out := { Outputs.quiet with
                 releaseConfirmed := true, nvRe := true, nvWrite := some 0x00#8, indWrites := [.red] } }, q⟩) ∧
    (b.nv ≠ accAfter b → exec (.poll k1 k2) ⟨c, b, q⟩ = .next ⟨c,
      { b with hist := histAfter b k1 k2, pressed := false, acc := c.init, count := 0, gate := false,
               ticks := 0#8, fb := .errorFeedback, ind := .yellowStrobeWithRed,
               out := { Outputs.quiet with
                 releaseConfirmed := true, nvRe := true,
                 indWrites := [.red, .yellowStrobeWithRed] } }, q⟩)

/-! ## The watchdog and the return from a strobe -/

/-- R120, R122: `TMR` counts modulo `2^TW`; at a compare match, and only then, the threshold advances, the
interrupt is signalled and `WdTick()` runs in the same micro-operation, in every phase, Mode and feedback
sub-state. -/
def Obligations.TmrCountsAndFiresAtMatch : Prop :=
  ∀ (c : Config) (b : Block c) (q : List Stim),
    (b.tcnt + 1#c.timerWidth ≠ b.tcmp → exec .tmr ⟨c, b, q⟩ = .next ⟨c,
      { b with tcnt := b.tcnt + 1#c.timerWidth, out := Outputs.quiet }, q⟩) ∧
    (b.tcnt + 1#c.timerWidth = b.tcmp → exec .tmr ⟨c, b, q⟩ = .next ⟨c,
      wdTick { b with tcnt := b.tcnt + 1#c.timerWidth,
                      tcmp := b.tcmp + BitVec.ofNat c.timerWidth c.timerStep,
                      out := { Outputs.quiet with wdIrq := true } }, q⟩)

/-- R124, R125: what the tick of a compare match does, gate closed, below the threshold, and at it. -/
def Obligations.WatchdogTickCountsOrTimesOut : Prop :=
  ∀ (c : Config) (b : Block c) (q : List Stim), b.tcnt + 1#c.timerWidth = b.tcmp →
    let fired : Block c :=
      { b with tcnt := b.tcnt + 1#c.timerWidth, tcmp := b.tcmp + BitVec.ofNat c.timerWidth c.timerStep,
               out := { Outputs.quiet with wdIrq := true } }
    (b.gate = false → exec .tmr ⟨c, b, q⟩ = .next ⟨c, fired, q⟩) ∧
    (b.gate = true → (b.ticks + 1#8).toNat < c.timeoutTicks →
      exec .tmr ⟨c, b, q⟩ = .next ⟨c, { fired with ticks := b.ticks + 1#8 }, q⟩) ∧
    (b.gate = true → c.timeoutTicks ≤ (b.ticks + 1#8).toNat →
      exec .tmr ⟨c, b, q⟩ = .next ⟨c,
        { fired with gate := false, ticks := 0#8, count := 0, acc := c.init, fb := .timeoutAbort,
                     ind := .yellowStrobeNoRed,
                     out := { Outputs.quiet with
                       wdIrq := true, entryTimedOut := true, indWrites := [.yellowStrobeNoRed] } }, q⟩)

/-- R147, R148: `DONE` ends the outstanding strobe and writes nothing else, and a `POLL` of the same cycle
already runs as after the strobe; with none outstanding it changes nothing. -/
def Obligations.DoneEndsTheStrobe : Prop :=
  ∀ (c : Config) (b : Block c) (q : List Stim),
    (b.fb ≠ .none → exec .done ⟨c, b, q⟩ = .next ⟨c, { b with fb := .none, out := Outputs.quiet }, q⟩) ∧
    (b.fb ≠ .none → ∀ k1 k2 : Bool,
      exec (.donePoll k1 k2) ⟨c, b, q⟩ = exec (.poll k1 k2) ⟨c, { b with fb := .none }, q⟩) ∧
    (b.fb = .none → exec .done ⟨c, b, q⟩ = .next ⟨c, { b with out := Outputs.quiet }, q⟩)

/-- `60_exceptions.md` R204 (a): a timeout and a poll in one cycle: the timeout wins and the sample is not
shifted in, whatever the poll would have confirmed. -/
def Obligations.TimeoutWinsOverPoll : Prop :=
  ∀ (c : Config) (b : Block c) (q : List Stim) (k1 k2 : Bool), b.tcnt + 1#c.timerWidth = b.tcmp →
    b.gate = true → c.timeoutTicks ≤ (b.ticks + 1#8).toNat →
    exec (.tmrPoll k1 k2) ⟨c, b, q⟩ = .next ⟨c,
      { b with tcnt := b.tcnt + 1#c.timerWidth, tcmp := b.tcmp + BitVec.ofNat c.timerWidth c.timerStep,
               gate := false, ticks := 0#8, count := 0, acc := c.init, fb := .timeoutAbort,
               ind := .yellowStrobeNoRed,
               out := { Outputs.quiet with
                 wdIrq := true, entryTimedOut := true, indWrites := [.yellowStrobeNoRed] } }, q⟩

/-! ## The store -/

/-- R53, R54: a saved byte is what a `load()` in the same micro-operation finds, and one after any later cycles,
`POR` among them, that do not write the store; nothing but the store and its write output is touched;
`clear()` saves the sentinel. -/
def Obligations.SaveThenLoadReturnsIt : Prop :=
  ∀ (c : Config) (b : Block c) (v : Byte), Memory.wf c.nv0 b.store = true →
    (load (save v b)).1 = v ∧ (load (por (save v b))).1 = v ∧ (load (clear b)).1 = 0x00#8 ∧
    (c.wf = true → ∀ (q ws : List Stim), neverWrites ⟨c, save v b, q⟩ ws = true →
      ∃ b' : Block c, afterWords ⟨c, save v b, q⟩ ws = .next ⟨c, b', []⟩ ∧ (load b').1 = v) ∧
    (save v b).out = { b.out with nvWrite := some v } ∧
    { save v b with store := b.store, out := b.out } = b ∧ clear b = save 0x00#8 b

/-- R55: exactly when the store is read and written. -/
def Obligations.StoreAccessesAreExactlyThese : Prop :=
  ∀ (c : Config) (b : Block c) (q : List Stim),
    (∀ i : Instr, i ∈ [Instr.por, .idle, .tmr, .done, .doneTmr] → ∃ b' : Block c,
      exec i ⟨c, b, q⟩ = .next ⟨c, b', q⟩ ∧
      b'.store = b.store ∧ b'.out.nvRe = false ∧ b'.out.nvWrite = none) ∧
    (∀ k1 k2 : Bool, ∃ b' : Block c, exec (.poll k1 k2) ⟨c, b, q⟩ = .next ⟨c, b', q⟩ ∧
      (b'.out.nvRe = true ↔ b.fb = .none ∧ (b.phase = .boot ∨
        (b.phase = .run ∧ b.mode = .locked ∧ ReleaseNow b k1 k2 ∧ b.count.val = 5))) ∧
      (∀ v : Byte, b'.out.nvWrite = some v ↔ b.fb = .none ∧
        ((b.phase = .boot ∧ (k1 || k2) = false ∧ b.nv = 0x00#8 ∧ v = 0x00#8) ∨
         (b.phase = .bypass ∧ ReleaseNow b k1 k2 ∧ v = 0x00#8) ∨
         (b.phase = .run ∧ b.mode = .unlocked ∧ ReleaseNow b k1 k2 ∧ b.count.val = 5 ∧ v = accAfter b) ∨
         (b.phase = .run ∧ b.mode = .locked ∧ ReleaseNow b k1 k2 ∧ b.count.val = 5 ∧
            b.nv = accAfter b ∧ v = 0x00#8))))

/-- The frame of memory, for every operation: the byte the cycle writes is what address 23 then reads as,
and every other read gives what it gave before (`20_memory.md` sections 1 and 2). -/
def Obligations.MemoryReadsAsLastWritten : Prop :=
  ∀ (c : Config) (b : Block c) (q : List Stim) (i : Instr), Memory.wf c.nv0 b.store = true →
    ∃ b' : Block c, exec i ⟨c, b, q⟩ = .next ⟨c, b', q⟩ ∧ Memory.wf c.nv0 b'.store = true ∧
      ∀ a : Nat, Memory.read c.nv0 b'.store a =
        match b'.out.nvWrite with
        | some v => if a = 23 then some v else Memory.read c.nv0 b.store a
        | none => Memory.read c.nv0 b.store a

/-- `95_test_vectors.md` section 4, property 3, from R172: what is saved is the sentinel or carries the marker,
and a code saved at a completion is never the sentinel. -/
def Obligations.SavedBytesCarryTheMarker : Prop :=
  ∀ (c : Config) (b : Block c) (q : List Stim) (i : Instr), Inv ⟨c, b, q⟩ →
    ∃ b' : Block c, exec i ⟨c, b, q⟩ = .next ⟨c, b', q⟩ ∧
      ∀ v : Byte, b'.out.nvWrite = some v →
        (v = 0x00#8 ∧ b'.mode = .unlocked) ∨
        (v.extractLsb' 6 2 = c.marker ∧ v ≠ 0x00#8 ∧ b'.mode = .locked)

/-! ## Invariants -/

/-- Every power-up meets the invariants, `State.reset` among them. -/
def Obligations.PowerUpMeetsTheInvariants : Prop :=
  (∀ c : Config, c.wf = true → Inv (State.powerUp c)) ∧ Inv State.reset

/-- R42: `POR` establishes I1 to I10 from any registers, over a canonical store whose byte satisfies I8, and
every step keeps them. -/
def Obligations.InvariantsHoldFromPorOn : Prop :=
  (∀ (c : Config) (b : Block c) (q : List Stim), c.wf = true → Memory.wf c.nv0 b.store = true →
    (b.nv = c.nv0 ∨ b.nv = 0x00#8 ∨ b.nv.extractLsb' 6 2 = c.marker) →
    ∃ b' : Block c, exec .por ⟨c, b, q⟩ = .next ⟨c, b', q⟩ ∧ Inv ⟨c, b', q⟩) ∧
  (∀ s : State, Inv s → ∃ t : State, step s = .next t ∧ Inv t)

/-- `95_test_vectors.md` section 4, property 1: the invariants hold after every stimulus sequence, for all
parameters. -/
def Obligations.EveryStimulusKeepsTheInvariants : Prop :=
  ∀ (c : Config) (ws : List Stim), c.wf = true →
    ∃ t : State, afterWords (State.powerUp c) ws = .next t ∧ Inv t

/-- From R251: Green is never the latched state; nor is Off ever commanded (`42_feedback.md` section 1). -/
def Obligations.GreenIsNeverLatched : Prop :=
  State.reset.block.ind ≠ .green ∧
  ∀ (c : Config) (b : Block c) (q : List Stim) (i : Instr), b.ind ≠ .green →
    ∃ b' : Block c, exec i ⟨c, b, q⟩ = .next ⟨c, b', q⟩ ∧ b'.ind ≠ .green ∧ .off ∉ b'.out.indWrites

/-- From R176: every change of the sequencer state is a row of the transition table. -/
def Obligations.SequencerFollowsTheTable : Prop :=
  ∀ (c : Config) (b : Block c) (q : List Stim) (i : Instr), Inv ⟨c, b, q⟩ →
    (i ∈ [Instr.por, .idle, .tmr, .done] ∨ ∃ k1 k2 : Bool, i = .poll k1 k2) →
    ∃ b' : Block c, exec i ⟨c, b, q⟩ = .next ⟨c, b', q⟩ ∧ sequencer b' = sequencerTable b i

/-! ## The debouncer over time -/

/-- R105: at most one event in a cycle; a press comes only while none is confirmed and a release only after
one, so the two alternate, starting with a press after `POR`; and a key kept held raises nothing more. -/
def Obligations.KeyEventsAlternate : Prop :=
  ∀ (c : Config) (b : Block c) (q : List Stim) (i : Instr), c.wf = true →
    ∃ b' : Block c, exec i ⟨c, b, q⟩ = .next ⟨c, b', q⟩ ∧
      ¬ (b'.out.pressConfirmed = true ∧ b'.out.releaseConfirmed = true) ∧
      (b'.out.pressConfirmed = true → b.pressed = false ∧ b'.pressed = true) ∧
      (b'.out.releaseConfirmed = true → b.pressed = true ∧ b'.pressed = false) ∧
      (b'.out.pressConfirmed = false → b'.out.releaseConfirmed = false → i ≠ .por →
        b'.pressed = b.pressed) ∧
      (i = .por → b'.pressed = false ∧ b'.out.pressConfirmed = false ∧ b'.out.releaseConfirmed = false) ∧
      (b.hist = BitVec.allOnes c.depth → b.pressed = true → (∀ k1 k2, pollKeys i = some (k1, k2) →
        (k1 || k2) = true) → b'.out.pressConfirmed = false ∧ b'.out.releaseConfirmed = false)

/-- `40_debouncer.md` R102: `N` equal samples fill the history, whatever it held before. -/
def Obligations.EqualSamplesFillTheHistory : Prop :=
  ∀ (c : Config) (h : BitVec c.depth) (s : Bool),
    (fun x : BitVec c.depth => shiftHist x s)^[c.depth] h
      = if s then BitVec.allOnes c.depth else 0#c.depth

/-- From R92: `PRESS1` and `PRESS2` confirm a press at their last word and at no other, `RELEASE` a release, and
`WDFIRE` makes exactly one compare match, at its last word, and leaves the timer ready for the next. -/
def Obligations.PseudoOperationsActAtTheirLastWord : Prop :=
  ∀ (c : Config) (b : Block c) (q : List Stim), c.wf = true →
    (∀ (k : Bool) (j : Nat), b.fb = .none → b.phase ≠ .boot → b.hist = 0#c.depth → b.pressed = false →
      j < c.depth → ∃ b' : Block c,
        afterWords ⟨c, b, q⟩ ((if k then press1 c else press2 c).take (j + 1)) = .next ⟨c, b', []⟩ ∧
        b'.out.pressConfirmed = decide (j + 1 = c.depth) ∧ b'.out.releaseConfirmed = false ∧
        (j + 1 = c.depth → b'.hist = BitVec.allOnes c.depth ∧ b'.pressed = true ∧ b'.keyDown = k)) ∧
    (∀ j : Nat, b.fb = .none → b.phase ≠ .boot → b.hist = BitVec.allOnes c.depth → b.pressed = true →
      j < c.depth → ∃ b' : Block c,
        afterWords ⟨c, b, q⟩ ((release c).take (j + 1)) = .next ⟨c, b', []⟩ ∧
        b'.out.releaseConfirmed = decide (j + 1 = c.depth) ∧ b'.out.pressConfirmed = false ∧
        (j + 1 = c.depth → b'.hist = 0#c.depth ∧ b'.pressed = false)) ∧
    (∀ j : Nat, countsToMatch b = c.timerStep → j < c.timerStep → ∃ b' : Block c,
        afterWords ⟨c, b, q⟩ ((wdFire c).take (j + 1)) = .next ⟨c, b', []⟩ ∧
        b'.out.wdIrq = decide (j + 1 = c.timerStep) ∧
        (j + 1 = c.timerStep → countsToMatch b' = c.timerStep))

/-- `30_encoding.md` R92: `KEY1` and `KEY2` make one entry each: the digit of the key shifted in, the count
one higher, the watchdog armed afresh, everything else as before. -/
def Obligations.KeyMakesOneEntry : Prop :=
  ∀ (c : Config) (b : Block c) (q : List Stim) (d : Bool), c.wf = true →
    b.phase = .run → b.fb = .none → b.hist = 0#c.depth → b.pressed = false → b.count.val < 5 →
    ∃ b' : Block c, afterWords ⟨c, b, q⟩ (if d then key1 c else key2 c) = .next ⟨c, b', []⟩ ∧
      registers b' = registers { b with
        keyDown := d, acc := (b.acc <<< 1) ||| (BitVec.ofBool d).setWidth 8, count := b.count + 1,
        gate := true, ticks := 0#8, ind := backgroundShown b.mode }

/-- `43_lock_fsm.md` R178, P1 and P7: six entries in Unlocked lock the block with the store holding the marked
byte of their digits. -/
def Obligations.SixEntriesSetTheCode : Prop :=
  ∀ (c : Config) (b : Block c) (q : List Stim) (d1 d2 d3 d4 d5 d6 : Bool), Inv ⟨c, b, q⟩ →
    b.phase = .run → b.mode = .unlocked → b.fb = .none → b.hist = 0#c.depth → b.pressed = false →
    b.count = 0 →
    ∃ b' : Block c, afterWords ⟨c, b, q⟩ (keys c [d1, d2, d3, d4, d5, d6]) = .next ⟨c, b', []⟩ ∧
      b'.phase = .run ∧ b'.mode = .locked ∧ b'.fb = .none ∧ b'.nv = markedCode c d1 d2 d3 d4 d5 d6 ∧
      b'.hist = 0#c.depth ∧ b'.pressed = false ∧ b'.count = 0 ∧ b'.acc = c.init ∧ b'.gate = false

/-- `43_lock_fsm.md` R178, P2 and P3: six entries in Locked unlock and clear the store if their marked byte is
the stored one; otherwise the Mode and the store stay and the error strobe plays. -/
def Obligations.SixEntriesInLockedMatchOrFail : Prop :=
  ∀ (c : Config) (b : Block c) (q : List Stim) (d1 d2 d3 d4 d5 d6 : Bool), Inv ⟨c, b, q⟩ →
    b.phase = .run → b.mode = .locked → b.fb = .none → b.hist = 0#c.depth → b.pressed = false →
    b.count = 0 →
    ∃ b' : Block c, afterWords ⟨c, b, q⟩ (keys c [d1, d2, d3, d4, d5, d6]) = .next ⟨c, b', []⟩ ∧
      b'.phase = .run ∧ b'.count = 0 ∧ b'.acc = c.init ∧ b'.gate = false ∧
      (b.nv = markedCode c d1 d2 d3 d4 d5 d6 →
        b'.mode = .unlocked ∧ b'.fb = .none ∧ b'.nv = 0x00#8) ∧
      (b.nv ≠ markedCode c d1 d2 d3 d4 d5 d6 →
        b'.mode = .locked ∧ b'.fb = .errorFeedback ∧ b'.nv = b.nv ∧ b'.ind = .yellowStrobeWithRed)

/-! ## The watchdog over time -/

/-- R123: since `POR` the compare matches are exactly the `TMR` micro-operations whose number is a multiple of
`TIMER_STEP`, whatever else the cycles do. -/
def Obligations.TimerFiresEveryTimerStep : Prop :=
  ∀ (s : State) (ws : List Stim) (w : Stim), s.cfg.wf = true →
    (∀ x ∈ ws, Stim.por x = false) → Stim.por w = false →
    ∃ b' : Block s.cfg, afterWords s (0x20#6 :: (ws ++ [w])) = .next ⟨s.cfg, b', []⟩ ∧
      (b'.out.wdIrq = true ↔
        Stim.tmrEn w = true ∧ ((ws ++ [w]).filter Stim.tmrEn).length % s.cfg.timerStep = 0)

/-- R128: with the gate closed no sequence of `TMR` raises `EntryTimedOut`, and only the timer moves. -/
def Obligations.NoTimeoutWithoutAnEntry : Prop :=
  ∀ (c : Config) (b : Block c) (q : List Stim) (n : Nat), c.wf = true → b.gate = false →
    ∃ b' : Block c, afterWords ⟨c, b, q⟩ (List.replicate (n + 1) 0x08#6) = .next ⟨c, b', []⟩ ∧
      b'.out.entryTimedOut = false ∧
      b' = { b with tcnt := b'.tcnt, tcmp := b'.tcmp, out := b'.out }

/-- `95_test_vectors.md` section 4, property 5: a timeout is raised only with an entry in progress. -/
def Obligations.TimeoutOnlyDuringAnEntry : Prop :=
  ∀ (c : Config) (b : Block c) (q : List Stim) (i : Instr), Inv ⟨c, b, q⟩ →
    ∃ b' : Block c, exec i ⟨c, b, q⟩ = .next ⟨c, b', q⟩ ∧
      (b'.out.entryTimedOut = true → 1 ≤ b.count.val ∧ b.count.val ≤ 5 ∧ b.phase = .run ∧
        b'.count = 0 ∧ b'.mode = b.mode ∧ b'.nv = b.nv ∧ b'.fb = .timeoutAbort)

/-- From R129: a release that leaves an entry in progress starts a countdown of `(TIMEOUT_TICKS - 1) * TIMER_STEP + 1`
to `TIMEOUT_TICKS * TIMER_STEP` timer counts; every timer count without a release brings it down by one, and
the entry times out exactly at its end. -/
def Obligations.TimeoutComesAtTheEndOfTheCountdown : Prop :=
  ∀ (c : Config) (b : Block c) (w : Stim) (rest : List Stim), Inv ⟨c, b, w :: rest⟩ →
    Stim.por w = false →
    ∃ b' : Block c, step ⟨c, b, w :: rest⟩ = .next ⟨c, b', rest⟩ ∧
      (b'.out.releaseConfirmed = true → b'.gate = true →
        (c.timeoutTicks - 1) * c.timerStep + 1 ≤ countsToTimeout b' ∧
        countsToTimeout b' ≤ c.timeoutTicks * c.timerStep) ∧
      (b'.out.releaseConfirmed = false → b.gate = true → Stim.tmrEn w = false →
        b'.out.entryTimedOut = false ∧ b'.gate = true ∧ countsToTimeout b' = countsToTimeout b) ∧
      (b'.out.releaseConfirmed = false → b.gate = true → Stim.tmrEn w = true →
        (b'.out.entryTimedOut = true ↔ countsToTimeout b = 1) ∧
        (countsToTimeout b ≠ 1 → b'.gate = true ∧ countsToTimeout b' + 1 = countsToTimeout b))

/-- R247: once a strobe is outstanding, only `DONE` or `POR` gets the block on; without them nothing but the
timer moves, however long. -/
def Obligations.StrobeBlocksUntilDoneOrPor : Prop :=
  ∀ (c : Config) (b : Block c) (q : List Stim) (ws : List Stim), Inv ⟨c, b, q⟩ → b.fb ≠ .none →
    (∀ w ∈ ws, Stim.por w = false ∧ Stim.indDone w = false) →
    ∃ b' : Block c, afterWords ⟨c, b, q⟩ ws = .next ⟨c, b', []⟩ ∧
      b' = { b with tcnt := b'.tcnt, tcmp := b'.tcmp, out := b'.out }

/-! ## What the lock keeps -/

/-- From R211: the Mode latch goes from Locked to Unlocked only at a completed attempt equal to the stored byte, at
the end of the bypass, or at the boot decision over an empty store. -/
def Obligations.WaysOutOfLocked : Prop :=
  ∀ (c : Config) (b b' : Block c) (q : List Stim) (i : Instr), Inv ⟨c, b, q⟩ →
    exec i ⟨c, b, q⟩ = .next ⟨c, b', q⟩ → b.mode = .locked → b'.mode = .unlocked →
    ∃ k1 k2 : Bool, pollKeys i = some (k1, k2) ∧ b'.phase = .run ∧
      ((b.phase = .run ∧ ReleaseNow b k1 k2 ∧ b.count.val = 5 ∧ b.nv = accAfter b) ∨
       (b.phase = .bypass ∧ ReleaseNow b k1 k2) ∨
       (b.phase = .boot ∧ (k1 || k2) = false ∧ b.nv = 0x00#8))

/-- `70_reset_and_hazards.md` R245: over a non-zero byte without the marker no operation but `POR` changes the
Mode or the byte of a running block. -/
def Obligations.ForeignByteKeepsTheBlockLocked : Prop :=
  ∀ (c : Config) (b : Block c) (q : List Stim) (i : Instr), Inv ⟨c, b, q⟩ → b.phase = .run →
    b.nv ≠ 0x00#8 → b.nv.extractLsb' 6 2 ≠ c.marker → i ≠ .por →
    b.mode = .locked ∧ ∃ b' : Block c, exec i ⟨c, b, q⟩ = .next ⟨c, b', q⟩ ∧
      b'.phase = .run ∧ b'.mode = .locked ∧ b'.nv = b.nv

/-- `70_reset_and_hazards.md` R250: the outputs tell that a press was confirmed, not which key: a poll that
completes no code shows the same whichever key is held and whatever digits were entered. -/
def Obligations.OutputsDoNotTellTheKey : Prop :=
  ∀ (c : Config) (b : Block c) (q : List Stim) (k1 k2 j1 j2 d : Bool) (a : Byte),
    (k1 || k2) = (j1 || j2) → ¬ (b.phase = .run ∧ b.count.val = 5 ∧ ReleaseNow b k1 k2) →
    ∃ (b' : Block c) (d' : Bool) (a' : Byte),
      exec (.poll k1 k2) ⟨c, b, q⟩ = .next ⟨c, b', q⟩ ∧
      exec (.poll j1 j2) ⟨c, { b with keyDown := d, acc := a }, q⟩
        = .next ⟨c, { b' with keyDown := d', acc := a' }, q⟩
end

