-- ==== Sys2Proof/Laws/State.lean ====
section
/-! SUPPORT. Each primitive update of a block, field by field. -/

namespace Sys2Proof.Machine

variable {c : Config} (b : Block c)

/-! ### beginCycle -/

@[simp] theorem beginCycle_hist : (beginCycle b).hist = b.hist := rfl
@[simp] theorem beginCycle_pressed : (beginCycle b).pressed = b.pressed := rfl
@[simp] theorem beginCycle_keyDown : (beginCycle b).keyDown = b.keyDown := rfl
@[simp] theorem beginCycle_acc : (beginCycle b).acc = b.acc := rfl
@[simp] theorem beginCycle_count : (beginCycle b).count = b.count := rfl
@[simp] theorem beginCycle_phase : (beginCycle b).phase = b.phase := rfl
@[simp] theorem beginCycle_mode : (beginCycle b).mode = b.mode := rfl
@[simp] theorem beginCycle_fb : (beginCycle b).fb = b.fb := rfl
@[simp] theorem beginCycle_gate : (beginCycle b).gate = b.gate := rfl
@[simp] theorem beginCycle_ticks : (beginCycle b).ticks = b.ticks := rfl
@[simp] theorem beginCycle_tcnt : (beginCycle b).tcnt = b.tcnt := rfl
@[simp] theorem beginCycle_tcmp : (beginCycle b).tcmp = b.tcmp := rfl
@[simp] theorem beginCycle_ind : (beginCycle b).ind = b.ind := rfl
@[simp] theorem beginCycle_store : (beginCycle b).store = b.store := rfl
@[simp] theorem beginCycle_out : (beginCycle b).out = Outputs.quiet := rfl

/-! ### raisePressConfirmed -/

@[simp] theorem raisePressConfirmed_hist : (raisePressConfirmed b).hist = b.hist := rfl
@[simp] theorem raisePressConfirmed_pressed : (raisePressConfirmed b).pressed = b.pressed := rfl
@[simp] theorem raisePressConfirmed_keyDown : (raisePressConfirmed b).keyDown = b.keyDown := rfl
@[simp] theorem raisePressConfirmed_acc : (raisePressConfirmed b).acc = b.acc := rfl
@[simp] theorem raisePressConfirmed_count : (raisePressConfirmed b).count = b.count := rfl
@[simp] theorem raisePressConfirmed_phase : (raisePressConfirmed b).phase = b.phase := rfl
@[simp] theorem raisePressConfirmed_mode : (raisePressConfirmed b).mode = b.mode := rfl
@[simp] theorem raisePressConfirmed_fb : (raisePressConfirmed b).fb = b.fb := rfl
@[simp] theorem raisePressConfirmed_gate : (raisePressConfirmed b).gate = b.gate := rfl
@[simp] theorem raisePressConfirmed_ticks : (raisePressConfirmed b).ticks = b.ticks := rfl
@[simp] theorem raisePressConfirmed_tcnt : (raisePressConfirmed b).tcnt = b.tcnt := rfl
@[simp] theorem raisePressConfirmed_tcmp : (raisePressConfirmed b).tcmp = b.tcmp := rfl
@[simp] theorem raisePressConfirmed_ind : (raisePressConfirmed b).ind = b.ind := rfl
@[simp] theorem raisePressConfirmed_store : (raisePressConfirmed b).store = b.store := rfl
@[simp] theorem raisePressConfirmed_out : (raisePressConfirmed b).out = { b.out with pressConfirmed := true } := rfl

/-! ### raiseReleaseConfirmed -/

@[simp] theorem raiseReleaseConfirmed_hist : (raiseReleaseConfirmed b).hist = b.hist := rfl
@[simp] theorem raiseReleaseConfirmed_pressed : (raiseReleaseConfirmed b).pressed = b.pressed := rfl
@[simp] theorem raiseReleaseConfirmed_keyDown : (raiseReleaseConfirmed b).keyDown = b.keyDown := rfl
@[simp] theorem raiseReleaseConfirmed_acc : (raiseReleaseConfirmed b).acc = b.acc := rfl
@[simp] theorem raiseReleaseConfirmed_count : (raiseReleaseConfirmed b).count = b.count := rfl
@[simp] theorem raiseReleaseConfirmed_phase : (raiseReleaseConfirmed b).phase = b.phase := rfl
@[simp] theorem raiseReleaseConfirmed_mode : (raiseReleaseConfirmed b).mode = b.mode := rfl
@[simp] theorem raiseReleaseConfirmed_fb : (raiseReleaseConfirmed b).fb = b.fb := rfl
@[simp] theorem raiseReleaseConfirmed_gate : (raiseReleaseConfirmed b).gate = b.gate := rfl
@[simp] theorem raiseReleaseConfirmed_ticks : (raiseReleaseConfirmed b).ticks = b.ticks := rfl
@[simp] theorem raiseReleaseConfirmed_tcnt : (raiseReleaseConfirmed b).tcnt = b.tcnt := rfl
@[simp] theorem raiseReleaseConfirmed_tcmp : (raiseReleaseConfirmed b).tcmp = b.tcmp := rfl
@[simp] theorem raiseReleaseConfirmed_ind : (raiseReleaseConfirmed b).ind = b.ind := rfl
@[simp] theorem raiseReleaseConfirmed_store : (raiseReleaseConfirmed b).store = b.store := rfl
@[simp] theorem raiseReleaseConfirmed_out : (raiseReleaseConfirmed b).out = { b.out with releaseConfirmed := true } := rfl

/-! ### raiseWdIrq -/

@[simp] theorem raiseWdIrq_hist : (raiseWdIrq b).hist = b.hist := rfl
@[simp] theorem raiseWdIrq_pressed : (raiseWdIrq b).pressed = b.pressed := rfl
@[simp] theorem raiseWdIrq_keyDown : (raiseWdIrq b).keyDown = b.keyDown := rfl
@[simp] theorem raiseWdIrq_acc : (raiseWdIrq b).acc = b.acc := rfl
@[simp] theorem raiseWdIrq_count : (raiseWdIrq b).count = b.count := rfl
@[simp] theorem raiseWdIrq_phase : (raiseWdIrq b).phase = b.phase := rfl
@[simp] theorem raiseWdIrq_mode : (raiseWdIrq b).mode = b.mode := rfl
@[simp] theorem raiseWdIrq_fb : (raiseWdIrq b).fb = b.fb := rfl
@[simp] theorem raiseWdIrq_gate : (raiseWdIrq b).gate = b.gate := rfl
@[simp] theorem raiseWdIrq_ticks : (raiseWdIrq b).ticks = b.ticks := rfl
@[simp] theorem raiseWdIrq_tcnt : (raiseWdIrq b).tcnt = b.tcnt := rfl
@[simp] theorem raiseWdIrq_tcmp : (raiseWdIrq b).tcmp = b.tcmp := rfl
@[simp] theorem raiseWdIrq_ind : (raiseWdIrq b).ind = b.ind := rfl
@[simp] theorem raiseWdIrq_store : (raiseWdIrq b).store = b.store := rfl
@[simp] theorem raiseWdIrq_out : (raiseWdIrq b).out = { b.out with wdIrq := true } := rfl

/-! ### raiseEntryTimedOut -/

@[simp] theorem raiseEntryTimedOut_hist : (raiseEntryTimedOut b).hist = b.hist := rfl
@[simp] theorem raiseEntryTimedOut_pressed : (raiseEntryTimedOut b).pressed = b.pressed := rfl
@[simp] theorem raiseEntryTimedOut_keyDown : (raiseEntryTimedOut b).keyDown = b.keyDown := rfl
@[simp] theorem raiseEntryTimedOut_acc : (raiseEntryTimedOut b).acc = b.acc := rfl
@[simp] theorem raiseEntryTimedOut_count : (raiseEntryTimedOut b).count = b.count := rfl
@[simp] theorem raiseEntryTimedOut_phase : (raiseEntryTimedOut b).phase = b.phase := rfl
@[simp] theorem raiseEntryTimedOut_mode : (raiseEntryTimedOut b).mode = b.mode := rfl
@[simp] theorem raiseEntryTimedOut_fb : (raiseEntryTimedOut b).fb = b.fb := rfl
@[simp] theorem raiseEntryTimedOut_gate : (raiseEntryTimedOut b).gate = b.gate := rfl
@[simp] theorem raiseEntryTimedOut_ticks : (raiseEntryTimedOut b).ticks = b.ticks := rfl
@[simp] theorem raiseEntryTimedOut_tcnt : (raiseEntryTimedOut b).tcnt = b.tcnt := rfl
@[simp] theorem raiseEntryTimedOut_tcmp : (raiseEntryTimedOut b).tcmp = b.tcmp := rfl
@[simp] theorem raiseEntryTimedOut_ind : (raiseEntryTimedOut b).ind = b.ind := rfl
@[simp] theorem raiseEntryTimedOut_store : (raiseEntryTimedOut b).store = b.store := rfl
@[simp] theorem raiseEntryTimedOut_out : (raiseEntryTimedOut b).out = { b.out with entryTimedOut := true } := rfl

/-! ### save -/

@[simp] theorem save_hist (v : Byte) : (save v b).hist = b.hist := rfl
@[simp] theorem save_pressed (v : Byte) : (save v b).pressed = b.pressed := rfl
@[simp] theorem save_keyDown (v : Byte) : (save v b).keyDown = b.keyDown := rfl
@[simp] theorem save_acc (v : Byte) : (save v b).acc = b.acc := rfl
@[simp] theorem save_count (v : Byte) : (save v b).count = b.count := rfl
@[simp] theorem save_phase (v : Byte) : (save v b).phase = b.phase := rfl
@[simp] theorem save_mode (v : Byte) : (save v b).mode = b.mode := rfl
@[simp] theorem save_fb (v : Byte) : (save v b).fb = b.fb := rfl
@[simp] theorem save_gate (v : Byte) : (save v b).gate = b.gate := rfl
@[simp] theorem save_ticks (v : Byte) : (save v b).ticks = b.ticks := rfl
@[simp] theorem save_tcnt (v : Byte) : (save v b).tcnt = b.tcnt := rfl
@[simp] theorem save_tcmp (v : Byte) : (save v b).tcmp = b.tcmp := rfl
@[simp] theorem save_ind (v : Byte) : (save v b).ind = b.ind := rfl
@[simp] theorem save_store (v : Byte) : (save v b).store = Memory.write c.nv0 b.store storeAddr v := rfl
@[simp] theorem save_out (v : Byte) : (save v b).out = { b.out with nvWrite := some v } := rfl

/-! ### emit -/

@[simp] theorem emit_hist (x : VisualState) : (emit x b).hist = b.hist := rfl
@[simp] theorem emit_pressed (x : VisualState) : (emit x b).pressed = b.pressed := rfl
@[simp] theorem emit_keyDown (x : VisualState) : (emit x b).keyDown = b.keyDown := rfl
@[simp] theorem emit_acc (x : VisualState) : (emit x b).acc = b.acc := rfl
@[simp] theorem emit_count (x : VisualState) : (emit x b).count = b.count := rfl
@[simp] theorem emit_phase (x : VisualState) : (emit x b).phase = b.phase := rfl
@[simp] theorem emit_mode (x : VisualState) : (emit x b).mode = b.mode := rfl
@[simp] theorem emit_fb (x : VisualState) : (emit x b).fb = b.fb := rfl
@[simp] theorem emit_gate (x : VisualState) : (emit x b).gate = b.gate := rfl
@[simp] theorem emit_ticks (x : VisualState) : (emit x b).ticks = b.ticks := rfl
@[simp] theorem emit_tcnt (x : VisualState) : (emit x b).tcnt = b.tcnt := rfl
@[simp] theorem emit_tcmp (x : VisualState) : (emit x b).tcmp = b.tcmp := rfl
@[simp] theorem emit_ind (x : VisualState) : (emit x b).ind = x := rfl
@[simp] theorem emit_store (x : VisualState) : (emit x b).store = b.store := rfl
@[simp] theorem emit_out (x : VisualState) : (emit x b).out = { b.out with indWrites := b.out.indWrites ++ [x] } := rfl

/-! ### enterFeedback -/

@[simp] theorem enterFeedback_hist (f : Feedback) (x : VisualState) : (enterFeedback f x b).hist = b.hist := rfl
@[simp] theorem enterFeedback_pressed (f : Feedback) (x : VisualState) : (enterFeedback f x b).pressed = b.pressed := rfl
@[simp] theorem enterFeedback_keyDown (f : Feedback) (x : VisualState) : (enterFeedback f x b).keyDown = b.keyDown := rfl
@[simp] theorem enterFeedback_acc (f : Feedback) (x : VisualState) : (enterFeedback f x b).acc = c.init := rfl
@[simp] theorem enterFeedback_count (f : Feedback) (x : VisualState) : (enterFeedback f x b).count = 0 := rfl
@[simp] theorem enterFeedback_phase (f : Feedback) (x : VisualState) : (enterFeedback f x b).phase = b.phase := rfl
@[simp] theorem enterFeedback_mode (f : Feedback) (x : VisualState) : (enterFeedback f x b).mode = b.mode := rfl
@[simp] theorem enterFeedback_fb (f : Feedback) (x : VisualState) : (enterFeedback f x b).fb = f := rfl
@[simp] theorem enterFeedback_gate (f : Feedback) (x : VisualState) : (enterFeedback f x b).gate = false := rfl
@[simp] theorem enterFeedback_ticks (f : Feedback) (x : VisualState) : (enterFeedback f x b).ticks = 0#8 := rfl
@[simp] theorem enterFeedback_tcnt (f : Feedback) (x : VisualState) : (enterFeedback f x b).tcnt = b.tcnt := rfl
@[simp] theorem enterFeedback_tcmp (f : Feedback) (x : VisualState) : (enterFeedback f x b).tcmp = b.tcmp := rfl
@[simp] theorem enterFeedback_ind (f : Feedback) (x : VisualState) : (enterFeedback f x b).ind = x := rfl
@[simp] theorem enterFeedback_store (f : Feedback) (x : VisualState) : (enterFeedback f x b).store = b.store := rfl
@[simp] theorem enterFeedback_out (f : Feedback) (x : VisualState) : (enterFeedback f x b).out = { b.out with indWrites := b.out.indWrites ++ [x] } := rfl

/-! ### leaveFeedback -/

@[simp] theorem leaveFeedback_hist : (leaveFeedback b).hist = b.hist := rfl
@[simp] theorem leaveFeedback_pressed : (leaveFeedback b).pressed = b.pressed := rfl
@[simp] theorem leaveFeedback_keyDown : (leaveFeedback b).keyDown = b.keyDown := rfl
@[simp] theorem leaveFeedback_acc : (leaveFeedback b).acc = b.acc := rfl
@[simp] theorem leaveFeedback_count : (leaveFeedback b).count = b.count := rfl
@[simp] theorem leaveFeedback_phase : (leaveFeedback b).phase = b.phase := rfl
@[simp] theorem leaveFeedback_mode : (leaveFeedback b).mode = b.mode := rfl
@[simp] theorem leaveFeedback_fb : (leaveFeedback b).fb = .none := rfl
@[simp] theorem leaveFeedback_gate : (leaveFeedback b).gate = b.gate := rfl
@[simp] theorem leaveFeedback_ticks : (leaveFeedback b).ticks = b.ticks := rfl
@[simp] theorem leaveFeedback_tcnt : (leaveFeedback b).tcnt = b.tcnt := rfl
@[simp] theorem leaveFeedback_tcmp : (leaveFeedback b).tcmp = b.tcmp := rfl
@[simp] theorem leaveFeedback_ind : (leaveFeedback b).ind = b.ind := rfl
@[simp] theorem leaveFeedback_store : (leaveFeedback b).store = b.store := rfl
@[simp] theorem leaveFeedback_out : (leaveFeedback b).out = b.out := rfl

/-! ### enterLocked -/

@[simp] theorem enterLocked_hist : (enterLocked b).hist = b.hist := rfl
@[simp] theorem enterLocked_pressed : (enterLocked b).pressed = b.pressed := rfl
@[simp] theorem enterLocked_keyDown : (enterLocked b).keyDown = b.keyDown := rfl
@[simp] theorem enterLocked_acc : (enterLocked b).acc = c.init := rfl
@[simp] theorem enterLocked_count : (enterLocked b).count = 0 := rfl
@[simp] theorem enterLocked_phase : (enterLocked b).phase = b.phase := rfl
@[simp] theorem enterLocked_mode : (enterLocked b).mode = .locked := rfl
@[simp] theorem enterLocked_fb : (enterLocked b).fb = b.fb := rfl
@[simp] theorem enterLocked_gate : (enterLocked b).gate = false := rfl
@[simp] theorem enterLocked_ticks : (enterLocked b).ticks = 0#8 := rfl
@[simp] theorem enterLocked_tcnt : (enterLocked b).tcnt = b.tcnt := rfl
@[simp] theorem enterLocked_tcmp : (enterLocked b).tcmp = b.tcmp := rfl
@[simp] theorem enterLocked_ind : (enterLocked b).ind = b.ind := rfl
@[simp] theorem enterLocked_store : (enterLocked b).store = b.store := rfl
@[simp] theorem enterLocked_out : (enterLocked b).out = b.out := rfl

/-! ### enterUnlocked -/

@[simp] theorem enterUnlocked_hist : (enterUnlocked b).hist = b.hist := rfl
@[simp] theorem enterUnlocked_pressed : (enterUnlocked b).pressed = b.pressed := rfl
@[simp] theorem enterUnlocked_keyDown : (enterUnlocked b).keyDown = b.keyDown := rfl
@[simp] theorem enterUnlocked_acc : (enterUnlocked b).acc = c.init := rfl
@[simp] theorem enterUnlocked_count : (enterUnlocked b).count = 0 := rfl
@[simp] theorem enterUnlocked_phase : (enterUnlocked b).phase = b.phase := rfl
@[simp] theorem enterUnlocked_mode : (enterUnlocked b).mode = .unlocked := rfl
@[simp] theorem enterUnlocked_fb : (enterUnlocked b).fb = b.fb := rfl
@[simp] theorem enterUnlocked_gate : (enterUnlocked b).gate = false := rfl
@[simp] theorem enterUnlocked_ticks : (enterUnlocked b).ticks = 0#8 := rfl
@[simp] theorem enterUnlocked_tcnt : (enterUnlocked b).tcnt = b.tcnt := rfl
@[simp] theorem enterUnlocked_tcmp : (enterUnlocked b).tcmp = b.tcmp := rfl
@[simp] theorem enterUnlocked_ind : (enterUnlocked b).ind = b.ind := rfl
@[simp] theorem enterUnlocked_store : (enterUnlocked b).store = Memory.write c.nv0 b.store storeAddr 0x00#8 := rfl
@[simp] theorem enterUnlocked_out : (enterUnlocked b).out = { b.out with nvWrite := some 0x00#8 } := rfl

end Sys2Proof.Machine
end

