-- ==== Sys2Proof/Laws/Arithmetic.lean ====
section
/-! SUPPORT. The arithmetic of the parameters, of the timer's distance to its compare match, and of the
marker bits in the accumulator. -/

namespace Sys2Proof.Machine

variable {c : Config} {b : Block c}

/-! ## Parameters -/

/-- What well-formed parameters satisfy (R6 to R8). -/
theorem wf_parts (h : c.wf = true) :
    1 ≤ c.depth ∧ c.marker ≠ 0#2 ∧ (1 ≤ c.timeoutTicks ∧ c.timeoutTicks ≤ 255) ∧
      1 ≤ c.timerStep ∧ c.timerStep < 2 ^ c.timerWidth := by
  simp [Config.wf, Config.depthOk, Config.markerOk, Config.timeoutOk, Config.timerOk] at h
  exact ⟨h.1.1.1, h.1.1.2, h.1.2, h.2⟩

/-- A well-formed timer has at least one bit. -/
theorem timerWidth_pos (h : c.wf = true) : 0 < c.timerWidth := by
  obtain ⟨-, -, -, h1, h2⟩ := wf_parts h
  rcases Nat.eq_zero_or_pos c.timerWidth with h0 | h0
  · rw [h0] at h2; omega
  · exact h0

/-! ## The distance of a counter to its threshold, modulo `2^w` -/

variable {w s : Nat} {t n : BitVec w}

/-- A count that does not match brings the match one count nearer. -/
theorem distance_count (h : n + 1#w ≠ t) (h1 : 1 ≤ (t - n).toNat) :
    (t - (n + 1#w)).toNat + 1 = (t - n).toNat := by
  have e : t - (n + 1#w) = (t - n) - 1#w := by
    simp only [BitVec.sub_eq_add_neg, BitVec.neg_add]; ac_rfl
  have hlt := (t - n).isLt
  have hw : (1#w).toNat = 1 := by
    rw [BitVec.toNat_ofNat]
    exact Nat.mod_eq_of_lt (by rcases w with _ | w <;> simp_all)
  rw [e, BitVec.toNat_sub_of_le (by rw [BitVec.le_def]; omega), hw]
  omega

/-- A count that does not match was not one count from the match. -/
theorem distance_ne_one (h : n + 1#w ≠ t) : (t - n).toNat ≠ 1 := fun h' => by
  refine h ?_
  have e : t - n = 1#w := BitVec.eq_of_toNat_eq (by
    rw [h', BitVec.toNat_ofNat, Nat.mod_eq_of_lt (h' ▸ (t - n).isLt)])
  rw [← e, BitVec.add_comm]
  exact BitVec.sub_add_cancel t n

/-- A count that matches was one count from the match. -/
theorem distance_eq_one (h : n + 1#w = t) (hw : 0 < w) : (t - n).toNat = 1 := by
  rw [← h, BitVec.add_comm, BitVec.add_sub_cancel, BitVec.toNat_ofNat]
  exact Nat.mod_eq_of_lt (Nat.one_lt_two_pow (by omega))

/-- The threshold moved on by `s` at a match is `s` counts away. -/
theorem distance_after_match (h : n + 1#w = t) (hs : s < 2 ^ w) :
    (t + BitVec.ofNat w s - (n + 1#w)).toNat = s := by
  rw [h, BitVec.add_comm, BitVec.add_sub_cancel, BitVec.toNat_ofNat]
  exact Nat.mod_eq_of_lt hs

/-- The tick counter does not wrap below the threshold. -/
theorem ticks_succ (hc : c.wf = true) (h : b.ticks.toNat < c.timeoutTicks) :
    (b.ticks + 1#8).toNat = b.ticks.toNat + 1 := by
  have := (wf_parts hc).2.2.1
  rw [BitVec.toNat_add]
  simp
  omega

/-! ## The marker above the digits (R42 I6, `43_lock_fsm.md` R172) -/

set_option maxRecDepth 100000 in
theorem shiftAcc_above : ∀ (k : Fin 6) (a : Byte) (d : Bool), a.toNat / 2 ^ k.val < 4 →
    shiftAcc a d >>> (k.val + 1) = a >>> k.val := by decide

/-- An entry moves the marker up by one. -/
theorem marker_accAfter (h : b.acc >>> b.count.val = c.init) :
    accAfter b >>> (b.count.val + 1) = c.init := by
  rw [← h]
  refine shiftAcc_above b.count b.acc b.keyDown ?_
  have e : (b.acc >>> b.count.val).toNat = c.init.toNat := by rw [h]
  have := c.marker.isLt
  rw [BitVec.toNat_ushiftRight, Nat.shiftRight_eq_div_pow] at e
  rw [e]
  simp [Config.init]
  omega

set_option maxRecDepth 100000 in
theorem topBits_shift : ∀ a : Byte, (a >>> 6).setWidth 2 = a.extractLsb' 6 2 := by decide

/-- After six entries the marker is the two high-order bits. -/
theorem marker_topBits {a : Byte} (h : a >>> 6 = c.init) : a.extractLsb' 6 2 = c.marker := by
  rw [← topBits_shift, h, Config.init]
  simp

end Sys2Proof.Machine
end

