-- ==== Sys2Proof/Laws/Poll.lean ====
section
/-! SUPPORT. Everything a polling tick can do: `Debounce`, then `POLL` by phase, event and count. -/

namespace Sys2Proof.Machine

variable {c : Config} {b : Block c} {k1 k2 : Bool}

/-! ## Debounce -/

theorem shiftHist_sample : shiftHist b.hist (sample k1 k2) = histAfter b k1 k2 := rfl

theorem debounce_press (h : PressNow b k1 k2) : debounce k1 k2 b = (.pressConfirmed,
    { b with hist := histAfter b k1 k2, pressed := true, keyDown := k1,
             out := { b.out with pressConfirmed := true } }) := by
  have hc : (allHeld (shiftHist b.hist (sample k1 k2)) && !b.pressed) = true := by
    simp [shiftHist_sample, allHeld, h.1, h.2]
  simp only [debounce, hc]
  rfl

theorem debounce_release (h : ReleaseNow b k1 k2) : debounce k1 k2 b = (.releaseConfirmed,
    { b with hist := histAfter b k1 k2, pressed := false,
             out := { b.out with releaseConfirmed := true } }) := by
  have hn : (allHeld (shiftHist b.hist (sample k1 k2)) && !b.pressed) = false := by simp [h.2]
  have hc : (allReleased (shiftHist b.hist (sample k1 k2)) && b.pressed) = true := by
    simp [shiftHist_sample, allReleased, h.1, h.2]
  simp only [debounce, hn, hc]
  rfl

theorem debounce_none (h1 : ¬ PressNow b k1 k2) (h2 : ¬ ReleaseNow b k1 k2) :
    debounce k1 k2 b = (.none, { b with hist := histAfter b k1 k2 }) := by
  have hn : (allHeld (shiftHist b.hist (sample k1 k2)) && !b.pressed) = false := by
    rw [Bool.eq_false_iff]
    simpa [shiftHist_sample, allHeld] using h1
  have hc : (allReleased (shiftHist b.hist (sample k1 k2)) && b.pressed) = false := by
    rw [Bool.eq_false_iff]
    simpa [shiftHist_sample, allReleased] using h2
  simp only [debounce, hn, hc]
  rfl

/-- The three cases exclude each other. -/
theorem not_press_of_release (h : ReleaseNow b k1 k2) : ¬ PressNow b k1 k2 := fun h' => by
  have := h'.2
  simp [h.2] at this

/-! ## POLL -/

theorem poll_suspended (h : b.fb ≠ .none) : poll k1 k2 b = b := by simp [poll, h]

theorem poll_boot_bypass (hf : b.fb = .none) (hp : b.phase = .boot) (hk : (k1 || k2) = true) :
    poll k1 k2 b = { b with phase := .bypass, out := { b.out with nvRe := true } } := by
  simp [poll, hf, hp, bootStep, load, sample, hk]

theorem poll_boot_locked (hf : b.fb = .none) (hp : b.phase = .boot) (hk : (k1 || k2) = false)
    (hv : b.nv ≠ 0x00#8) : poll k1 k2 b =
      { b with phase := .run, mode := .locked, acc := c.init, count := 0, gate := false, ticks := 0#8,
               out := { b.out with nvRe := true } } := by
  simp [poll, hf, hp, bootStep, load, sample, hk, hv, enterLocked]

theorem poll_boot_unlocked (hf : b.fb = .none) (hp : b.phase = .boot) (hk : (k1 || k2) = false)
    (hv : b.nv = 0x00#8) : poll k1 k2 b =
      { b with phase := .run, mode := .unlocked, acc := c.init, count := 0, gate := false, ticks := 0#8,
               store := Memory.write c.nv0 b.store storeAddr 0x00#8,
               out := { b.out with nvRe := true, nvWrite := some 0x00#8 } } := by
  simp [poll, hf, hp, bootStep, load, sample, hk, hv, enterUnlocked, clear, save]

theorem poll_bypass_press (hf : b.fb = .none) (hp : b.phase = .bypass) (h : PressNow b k1 k2) :
    poll k1 k2 b = { b with hist := histAfter b k1 k2, pressed := true, keyDown := k1,
                            out := { b.out with pressConfirmed := true } } := by
  simp [poll, hf, hp, bypassStep, debounce_press h]

theorem poll_bypass_release (hf : b.fb = .none) (hp : b.phase = .bypass) (h : ReleaseNow b k1 k2) :
    poll k1 k2 b =
      { b with hist := histAfter b k1 k2, pressed := false, phase := .run, mode := .unlocked,
               acc := c.init, count := 0, gate := false, ticks := 0#8,
               store := Memory.write c.nv0 b.store storeAddr 0x00#8,
               out := { b.out with releaseConfirmed := true, nvWrite := some 0x00#8 } } := by
  simp [poll, hf, hp, bypassStep, debounce_release h, enterUnlocked, clear, save]

theorem poll_bypass_none (hf : b.fb = .none) (hp : b.phase = .bypass) (h1 : ¬ PressNow b k1 k2)
    (h2 : ¬ ReleaseNow b k1 k2) : poll k1 k2 b = { b with hist := histAfter b k1 k2 } := by
  simp [poll, hf, hp, bypassStep, debounce_none h1 h2]

theorem poll_run (hf : b.fb = .none) (hp : b.phase = .run) : poll k1 k2 b = runStep k1 k2 b := by
  unfold poll
  rw [if_pos hf, hp]

/-- The background in one update. -/
theorem background_eq : background b =
    { b with ind := backgroundShown b.mode,
             out := { b.out with indWrites := b.out.indWrites ++ backgroundWrites b.mode } } := by
  cases h : b.mode <;> simp [background, h, emit, backgroundShown, backgroundWrites]

theorem poll_run_press (hf : b.fb = .none) (hp : b.phase = .run) (h : PressNow b k1 k2) :
    poll k1 k2 b =
      { b with hist := histAfter b k1 k2, pressed := true, keyDown := k1, ind := .blue,
               out := { b.out with
                 pressConfirmed := true,
                 indWrites := b.out.indWrites ++ (backgroundWrites b.mode ++ [.blue]) } } := by
  have h' : PressNow (background b) k1 k2 := by rw [background_eq]; exact h
  rw [poll_run hf hp, runStep, debounce_press h', background_eq]
  simp [emit, histAfter]

theorem poll_run_none (hf : b.fb = .none) (hp : b.phase = .run) (h1 : ¬ PressNow b k1 k2)
    (h2 : ¬ ReleaseNow b k1 k2) : poll k1 k2 b =
      { b with hist := histAfter b k1 k2, ind := backgroundShown b.mode,
               out := { b.out with indWrites := b.out.indWrites ++ backgroundWrites b.mode } } := by
  have h1' : ¬ PressNow (background b) k1 k2 := by rw [background_eq]; exact h1
  have h2' : ¬ ReleaseNow (background b) k1 k2 := by rw [background_eq]; exact h2
  rw [poll_run hf hp, runStep, debounce_none h1' h2', background_eq]
  rfl

/-- The block when a confirmed release goes on to `Accumulate()`. -/
def releasedRun (b : Block c) (k1 k2 : Bool) : Block c :=
  { b with hist := histAfter b k1 k2, pressed := false, ind := backgroundShown b.mode,
           out := { b.out with
             releaseConfirmed := true, indWrites := b.out.indWrites ++ backgroundWrites b.mode } }

theorem poll_run_release (hf : b.fb = .none) (hp : b.phase = .run) (h : ReleaseNow b k1 k2) :
    poll k1 k2 b = accumulate (releasedRun b k1 k2) := by
  have h' : ReleaseNow (background b) k1 k2 := by rw [background_eq]; exact h
  rw [poll_run hf hp, runStep, debounce_release h', background_eq]
  rfl

/-- An entry that does not complete a code. -/
theorem accumulate_entry (h : b.count.val < 5) : accumulate b =
    { b with acc := accAfter b, gate := true, ticks := 0#8, count := b.count + 1 } := by
  have h' : b.count.val + 1 < codeLen := by unfold codeLen; omega
  have hc : (⟨b.count.val + 1, h'⟩ : Fin 6) = b.count + 1 := by
    apply Fin.ext
    simp [Fin.val_add]
    omega
  unfold accumulate
  rw [dif_pos h', hc]
  rfl

/-- The sixth entry goes on to the completion of its Mode. -/
theorem accumulate_sixth_unlocked (h : b.count.val = 5) (hm : b.mode = .unlocked) :
    accumulate b = completeLock { b with acc := accAfter b, gate := true, ticks := 0#8 } := by
  unfold accumulate
  rw [dif_neg (by simp [h, codeLen]), hm]
  rfl

theorem accumulate_sixth_locked (h : b.count.val = 5) (hm : b.mode = .locked) :
    accumulate b = completeAttempt { b with acc := accAfter b, gate := true, ticks := 0#8 } := by
  unfold accumulate
  rw [dif_neg (by simp [h, codeLen]), hm]
  rfl

theorem accumulate_lock (h : b.count.val = 5) (hm : b.mode = .unlocked) : accumulate b =
    { b with acc := c.init, count := 0, gate := false, ticks := 0#8, mode := .locked,
             store := Memory.write c.nv0 b.store storeAddr (accAfter b),
             out := { b.out with nvWrite := some (accAfter b) } } := by
  simp [accumulate, h, codeLen, hm, completeLock, enterLocked, save, shiftAcc, accAfter]

theorem accumulate_match (h : b.count.val = 5) (hm : b.mode = .locked) (hv : b.nv = accAfter b) :
    accumulate b =
      { b with acc := c.init, count := 0, gate := false, ticks := 0#8, mode := .unlocked,
               store := Memory.write c.nv0 b.store storeAddr 0x00#8,
               out := { b.out with nvRe := true, nvWrite := some 0x00#8 } } := by
  have hv' : b.nv = shiftAcc b.acc b.keyDown := hv
  have hn : Memory.byteAt c.nv0 b.store storeAddr = shiftAcc b.acc b.keyDown := hv'
  simp [accumulate, h, codeLen, hm, completeAttempt, load, Block.nv, hn, enterUnlocked, clear, save]

theorem accumulate_mismatch (h : b.count.val = 5) (hm : b.mode = .locked) (hv : b.nv ≠ accAfter b) :
    accumulate b =
      { b with acc := c.init, count := 0, gate := false, ticks := 0#8, fb := .errorFeedback,
               ind := .yellowStrobeWithRed,
               out := { b.out with
                 nvRe := true, indWrites := b.out.indWrites ++ [.yellowStrobeWithRed] } } := by
  have hn : ¬ Memory.byteAt c.nv0 b.store storeAddr = shiftAcc b.acc b.keyDown := hv
  simp [accumulate, h, codeLen, hm, completeAttempt, load, Block.nv, hn, mismatch, enterFeedback, emit]

/-! ## POLL at a confirmed release in RUN -/

theorem poll_run_entry (hf : b.fb = .none) (hp : b.phase = .run) (h : ReleaseNow b k1 k2)
    (hc : b.count.val < 5) :
    poll k1 k2 b =
      { b with hist := histAfter b k1 k2, pressed := false, acc := accAfter b, gate := true,
               ticks := 0#8, count := b.count + 1, ind := backgroundShown b.mode,
               out := { b.out with
                 releaseConfirmed := true, indWrites := b.out.indWrites ++ backgroundWrites b.mode } } :=
  (poll_run_release hf hp h).trans (accumulate_entry (b := releasedRun b k1 k2) hc)

theorem poll_run_lock (hf : b.fb = .none) (hp : b.phase = .run) (h : ReleaseNow b k1 k2)
    (hc : b.count.val = 5) (hm : b.mode = .unlocked) :
    poll k1 k2 b =
      { b with hist := histAfter b k1 k2, pressed := false, acc := c.init, count := 0, gate := false,
               ticks := 0#8, mode := .locked, ind := .yellow,
               store := Memory.write c.nv0 b.store storeAddr (accAfter b),
               out := { b.out with
                 releaseConfirmed := true, nvWrite := some (accAfter b),
                 indWrites := b.out.indWrites ++ [.green, .yellow] } } := by
  rw [poll_run_release hf hp h, accumulate_lock (b := releasedRun b k1 k2) hc hm]
  simp only [releasedRun, hm]
  rfl

theorem poll_run_match (hf : b.fb = .none) (hp : b.phase = .run) (h : ReleaseNow b k1 k2)
    (hc : b.count.val = 5) (hm : b.mode = .locked) (hv : b.nv = accAfter b) :
    poll k1 k2 b =
      { b with hist := histAfter b k1 k2, pressed := false, acc := c.init, count := 0, gate := false,
               ticks := 0#8, mode := .unlocked, ind := .red,
               store := Memory.write c.nv0 b.store storeAddr 0x00#8,
               out := { b.out with
                 releaseConfirmed := true, nvRe := true, nvWrite := some 0x00#8,
                 indWrites := b.out.indWrites ++ [.red] } } := by
  rw [poll_run_release hf hp h, accumulate_match (b := releasedRun b k1 k2) hc hm hv]
  simp only [releasedRun, hm]
  rfl

theorem poll_run_mismatch (hf : b.fb = .none) (hp : b.phase = .run) (h : ReleaseNow b k1 k2)
    (hc : b.count.val = 5) (hm : b.mode = .locked) (hv : b.nv ≠ accAfter b) :
    poll k1 k2 b =
      { b with hist := histAfter b k1 k2, pressed := false, acc := c.init, count := 0, gate := false,
               ticks := 0#8, fb := .errorFeedback, ind := .yellowStrobeWithRed,
               out := { b.out with
                 releaseConfirmed := true, nvRe := true,
                 indWrites := b.out.indWrites ++ [.red, .yellowStrobeWithRed] } } := by
  rw [poll_run_release hf hp h, accumulate_mismatch (b := releasedRun b k1 k2) hc hm hv]
  simp only [releasedRun, hm, backgroundWrites, List.append_assoc]
  rfl

/-! ## Every way a POLL can go -/

/-- What holds of each possible result holds of the `POLL`. -/
theorem poll_elim {P : Block c → Prop} (b : Block c) (k1 k2 : Bool)
    (suspended : b.fb ≠ .none →
      P b)
    (bootBypass : b.fb = .none → b.phase = .boot → (k1 || k2) = true →
      P { b with phase := .bypass, out := { b.out with nvRe := true } })
    (bootLocked : b.fb = .none → b.phase = .boot → (k1 || k2) = false → b.nv ≠ 0x00#8 →
      P { b with phase := .run, mode := .locked, acc := c.init, count := 0, gate := false, ticks := 0#8,
                 out := { b.out with nvRe := true } })
    (bootUnlocked : b.fb = .none → b.phase = .boot → (k1 || k2) = false → b.nv = 0x00#8 →
      P { b with phase := .run, mode := .unlocked, acc := c.init, count := 0, gate := false, ticks := 0#8,
                 store := Memory.write c.nv0 b.store storeAddr 0x00#8,
                 out := { b.out with nvRe := true, nvWrite := some 0x00#8 } })
    (bypassPress : b.fb = .none → b.phase = .bypass → PressNow b k1 k2 →
      P { b with hist := histAfter b k1 k2, pressed := true, keyDown := k1,
                 out := { b.out with pressConfirmed := true } })
    (bypassRelease : b.fb = .none → b.phase = .bypass → ReleaseNow b k1 k2 →
      P { b with hist := histAfter b k1 k2, pressed := false, phase := .run, mode := .unlocked,
                 acc := c.init, count := 0, gate := false, ticks := 0#8,
                 store := Memory.write c.nv0 b.store storeAddr 0x00#8,
                 out := { b.out with releaseConfirmed := true, nvWrite := some 0x00#8 } })
    (bypassNone : b.fb = .none → b.phase = .bypass → ¬ PressNow b k1 k2 → ¬ ReleaseNow b k1 k2 →
      P { b with hist := histAfter b k1 k2 })
    (runPress : b.fb = .none → b.phase = .run → PressNow b k1 k2 →
      P { b with hist := histAfter b k1 k2, pressed := true, keyDown := k1, ind := .blue,
                 out := { b.out with
                   pressConfirmed := true,
                   indWrites := b.out.indWrites ++ (backgroundWrites b.mode ++ [.blue]) } })
    (runNone : b.fb = .none → b.phase = .run → ¬ PressNow b k1 k2 → ¬ ReleaseNow b k1 k2 →
      P { b with hist := histAfter b k1 k2, ind := backgroundShown b.mode,
                 out := { b.out with indWrites := b.out.indWrites ++ backgroundWrites b.mode } })
    (runEntry : b.fb = .none → b.phase = .run → ReleaseNow b k1 k2 → b.count.val < 5 →
      P { b with hist := histAfter b k1 k2, pressed := false, acc := accAfter b, gate := true,
                 ticks := 0#8, count := b.count + 1, ind := backgroundShown b.mode,
                 out := { b.out with
                   releaseConfirmed := true, indWrites := b.out.indWrites ++ backgroundWrites b.mode } })
    (runLock : b.fb = .none → b.phase = .run → ReleaseNow b k1 k2 → b.count.val = 5 → b.mode = .unlocked →
      P { b with hist := histAfter b k1 k2, pressed := false, acc := c.init, count := 0, gate := false,
                 ticks := 0#8, mode := .locked, ind := .yellow,
                 store := Memory.write c.nv0 b.store storeAddr (accAfter b),
                 out := { b.out with
                   releaseConfirmed := true, nvWrite := some (accAfter b),
                   indWrites := b.out.indWrites ++ [.green, .yellow] } })
    (runMatch : b.fb = .none → b.phase = .run → ReleaseNow b k1 k2 → b.count.val = 5 → b.mode = .locked → b.nv = accAfter b →
      P { b with hist := histAfter b k1 k2, pressed := false, acc := c.init, count := 0, gate := false,
                 ticks := 0#8, mode := .unlocked, ind := .red,
                 store := Memory.write c.nv0 b.store storeAddr 0x00#8,
                 out := { b.out with
                   releaseConfirmed := true, nvRe := true, nvWrite := some 0x00#8,
                   indWrites := b.out.indWrites ++ [.red] } })
    (runMismatch : b.fb = .none → b.phase = .run → ReleaseNow b k1 k2 → b.count.val = 5 → b.mode = .locked → b.nv ≠ accAfter b →
      P { b with hist := histAfter b k1 k2, pressed := false, acc := c.init, count := 0, gate := false,
                 ticks := 0#8, fb := .errorFeedback, ind := .yellowStrobeWithRed,
                 out := { b.out with
                   releaseConfirmed := true, nvRe := true,
                   indWrites := b.out.indWrites ++ [.red, .yellowStrobeWithRed] } }) :
    P (poll k1 k2 b) := by
  by_cases hf : b.fb = .none
  swap
  · rw [poll_suspended hf]; exact suspended hf
  cases hp : b.phase with
  | boot =>
    cases hk : (k1 || k2) with
    | true => rw [poll_boot_bypass hf hp hk]; exact bootBypass hf hp hk
    | false =>
      by_cases hv : b.nv = 0x00#8
      · rw [poll_boot_unlocked hf hp hk hv]; exact bootUnlocked hf hp hk hv
      · rw [poll_boot_locked hf hp hk hv]; exact bootLocked hf hp hk hv
  | bypass =>
    by_cases h1 : PressNow b k1 k2
    · rw [poll_bypass_press hf hp h1]; exact bypassPress hf hp h1
    by_cases h2 : ReleaseNow b k1 k2
    · rw [poll_bypass_release hf hp h2]; exact bypassRelease hf hp h2
    · rw [poll_bypass_none hf hp h1 h2]; exact bypassNone hf hp h1 h2
  | run =>
    by_cases h1 : PressNow b k1 k2
    · rw [poll_run_press hf hp h1]; exact runPress hf hp h1
    by_cases h : ReleaseNow b k1 k2
    swap
    · rw [poll_run_none hf hp h1 h]; exact runNone hf hp h1 h
    rcases Nat.lt_or_ge b.count.val 5 with hc | hc
    · rw [poll_run_entry hf hp h hc]; exact runEntry hf hp h hc
    have hc : b.count.val = 5 := by omega
    cases hm : b.mode with
    | unlocked => rw [poll_run_lock hf hp h hc hm]; exact runLock hf hp h hc hm
    | locked =>
      by_cases hv : b.nv = accAfter b
      · rw [poll_run_match hf hp h hc hm hv]; exact runMatch hf hp h hc hm hv
      · rw [poll_run_mismatch hf hp h hc hm hv]; exact runMismatch hf hp h hc hm hv

end Sys2Proof.Machine
end

