-- ==== Sys2Proof/Laws/Step.lean ====
section
/-! SUPPORT. Every cycle answers a next state; a step, and a sequence of steps, as functions of the block. -/

namespace Sys2Proof.Machine

variable {c : Config}

/-- What one cycle of an operation makes of the block. -/
def cycleOf (i : Instr) (b : Block c) : Block c :=
  match i with
  | .por => por (beginCycle b)
  | .idle => beginCycle b
  | .poll k1 k2 => poll k1 k2 (beginCycle b)
  | .tmr => tmr (beginCycle b)
  | .tmrPoll k1 k2 => poll k1 k2 (tmr (beginCycle b))
  | .done => done (beginCycle b)
  | .donePoll k1 k2 => poll k1 k2 (done (beginCycle b))
  | .doneTmr => tmr (done (beginCycle b))
  | .doneTmrPoll k1 k2 => poll k1 k2 (tmr (done (beginCycle b)))

/-- `exec` always answers the next state; only the block changes. -/
theorem exec_eq_next (i : Instr) (b : Block c) (q : List Stim) :
    exec i ⟨c, b, q⟩ = .next ⟨c, cycleOf i b, q⟩ := by
  cases i <;> rfl

theorem exec_eq_of {i : Instr} {b b' : Block c} {q : List Stim} (h : cycleOf i b = b') :
    exec i ⟨c, b, q⟩ = .next ⟨c, b', q⟩ := h ▸ exec_eq_next i b q

/-- A step of a machine with legal parameters. -/
theorem step_cons (hc : c.wf = true) (b : Block c) (w : Stim) (rest : List Stim) :
    step ⟨c, b, w :: rest⟩ = .next ⟨c, cycleOf (decode w) b, rest⟩ := by
  simp [step, hc, nextWord, dropWord, exec_eq_next]

theorem step_nil (hc : c.wf = true) (b : Block c) : step ⟨c, b, []⟩ = .next ⟨c, cycleOf .idle b, []⟩ := by
  simpa [step, hc, nextWord, dropWord, decode, Stim.por, Stim.indDone, Stim.tmrEn, Stim.pollEn]
    using exec_eq_next .idle b []

/-- The block after the cycles of a sequence of words. -/
def cyclesOf (ws : List Stim) (b : Block c) : Block c := ws.foldl (fun b w => cycleOf (decode w) b) b

@[simp] theorem cyclesOf_nil (b : Block c) : cyclesOf [] b = b := rfl

@[simp] theorem cyclesOf_cons (w : Stim) (ws : List Stim) (b : Block c) :
    cyclesOf (w :: ws) b = cyclesOf ws (cycleOf (decode w) b) := rfl

theorem cyclesOf_append (ws vs : List Stim) (b : Block c) :
    cyclesOf (ws ++ vs) b = cyclesOf vs (cyclesOf ws b) := List.foldl_append ..

theorem cyclesOf_concat (ws : List Stim) (w : Stim) (b : Block c) :
    cyclesOf (ws ++ [w]) b = cycleOf (decode w) (cyclesOf ws b) := by rw [cyclesOf_append]; rfl

/-- One step, then the others, for any machine. -/
theorem run_succ_of (M : Host.Core) {k : Nat} {s t : M.State} (h : M.step s = .next t) :
    M.run (k + 1) s = M.run k t := by
  simp only [Host.Core.run, h]

/-- One step, then the others. -/
theorem run_succ {k : Nat} {s t : State} (h : step s = .next t) : core.run (k + 1) s = core.run k t :=
  run_succ_of core h

/-- `k` steps of the host's machine are the cycles of the first `k` listed words. -/
theorem run_eq_next (hc : c.wf = true) (ws : List Stim) (b : Block c) :
    core.run ws.length (⟨c, b, ws⟩ : State) = .next (⟨c, cyclesOf ws b, []⟩ : State) := by
  induction ws generalizing b with
  | nil => rfl
  | cons w ws ih =>
    exact (run_succ (step_cons hc b w ws)).trans (ih _)

/-- The machine completes every stimulus sequence. -/
theorem afterWords_eq_next (hc : c.wf = true) (b : Block c) (q ws : List Stim) :
    afterWords ⟨c, b, q⟩ ws = .next ⟨c, cyclesOf ws b, []⟩ := run_eq_next hc ws b

/-- `neverWrites`, one word at a time. -/
theorem neverWrites_cons (hc : c.wf = true) (b : Block c) (q : List Stim) (w : Stim) (ws : List Stim) :
    neverWrites ⟨c, b, q⟩ (w :: ws) =
      ((cycleOf (decode w) b).out.nvWrite == none && neverWrites ⟨c, cycleOf (decode w) b, []⟩ ws) := by
  simp only [neverWrites, step_cons hc]

end Sys2Proof.Machine
end

