-- ==== Sys2Proof/Laws/Watchdog.lean ====
section
/-! SUPPORT. Everything `TMR` and `DONE` can do. -/

namespace Sys2Proof.Machine

variable {c : Config} {b : Block c}

theorem done_of_strobe (h : b.fb ≠ .none) : done b = { b with fb := .none } := by
  simp [done, doneOn, h, leaveFeedback]

theorem done_of_none (h : b.fb = .none) : done b = b := by simp [done, doneOn, h]

/-- `DONE` in one update. -/
theorem done_eq : done b = { b with fb := .none } := by
  by_cases h : b.fb = .none
  · rw [done_of_none h, ← h]
  · exact done_of_strobe h

theorem doneOn_of_strobe {f : Feedback} (h : f ≠ .none) : doneOn f b = { b with fb := .none } := by
  simp [doneOn, h, leaveFeedback]

@[simp] theorem doneOn_none : doneOn .none b = b := by simp [doneOn]

theorem tmr_noMatch (h : b.tcnt + 1#c.timerWidth ≠ b.tcmp) :
    tmr b = { b with tcnt := b.tcnt + 1#c.timerWidth } := by
  simp [tmr, compareMatch, h]

/-- The block when a compare match goes on to `WdTick()`. -/
def firedTimer (b : Block c) : Block c :=
  { b with tcnt := b.tcnt + 1#c.timerWidth, tcmp := b.tcmp + BitVec.ofNat c.timerWidth c.timerStep,
           out := { b.out with wdIrq := true } }

theorem tmr_match (h : b.tcnt + 1#c.timerWidth = b.tcmp) : tmr b = wdTick (firedTimer b) := by
  simp [tmr, compareMatch, h, firedTimer, raiseWdIrq]

theorem wdTick_closed (h : b.gate = false) : wdTick b = b := by simp [wdTick, h]

theorem wdTick_counts (h : b.gate = true) (ht : (b.ticks + 1#8).toNat < c.timeoutTicks) :
    wdTick b = { b with ticks := b.ticks + 1#8 } := by
  have hn : timeoutReached c (b.ticks + 1#8) = false := by simpa [timeoutReached] using ht
  simp [wdTick, h, hn]

theorem wdTick_timesOut (h : b.gate = true) (ht : c.timeoutTicks ≤ (b.ticks + 1#8).toNat) :
    wdTick b =
      { b with gate := false, ticks := 0#8, count := 0, acc := c.init, fb := .timeoutAbort,
               ind := .yellowStrobeNoRed,
               out := { b.out with
                 entryTimedOut := true, indWrites := b.out.indWrites ++ [.yellowStrobeNoRed] } } := by
  have hc : timeoutReached c (b.ticks + 1#8) = true := by simpa [timeoutReached] using ht
  simp only [wdTick, h, hc]
  rfl

/-- Every way a `TMR` can go: what holds of each result holds of the `TMR`. -/
theorem tmr_elim {P : Block c → Prop} (b : Block c)
    (noMatch : b.tcnt + 1#c.timerWidth ≠ b.tcmp → P { b with tcnt := b.tcnt + 1#c.timerWidth })
    (closed : b.tcnt + 1#c.timerWidth = b.tcmp → b.gate = false → P (firedTimer b))
    (counts : b.tcnt + 1#c.timerWidth = b.tcmp → b.gate = true →
      (b.ticks + 1#8).toNat < c.timeoutTicks → P { firedTimer b with ticks := b.ticks + 1#8 })
    (timesOut : b.tcnt + 1#c.timerWidth = b.tcmp → b.gate = true →
      c.timeoutTicks ≤ (b.ticks + 1#8).toNat →
      P { firedTimer b with
            gate := false, ticks := 0#8, count := 0, acc := c.init, fb := .timeoutAbort,
            ind := .yellowStrobeNoRed,
            out := { (firedTimer b).out with
              entryTimedOut := true, indWrites := b.out.indWrites ++ [.yellowStrobeNoRed] } }) :
    P (tmr b) := by
  by_cases h : b.tcnt + 1#c.timerWidth = b.tcmp
  swap
  · rw [tmr_noMatch h]; exact noMatch h
  rw [tmr_match h]
  cases hg : b.gate with
  | false => rw [wdTick_closed (b := firedTimer b) hg]; exact closed h hg
  | true =>
    rcases Nat.lt_or_ge (b.ticks + 1#8).toNat c.timeoutTicks with ht | ht
    · rw [wdTick_counts (b := firedTimer b) hg ht]; exact counts h hg ht
    · rw [wdTick_timesOut (b := firedTimer b) hg ht]; exact timesOut h hg ht

end Sys2Proof.Machine
end

