-- ==== Sys2Proof/Laws/Cycle.lean ====
section
/-! SUPPORT. The micro-operations of a cycle together: the outputs they add, what none of them touches, and
that no cycle depends on the outputs of the one before. -/

namespace Sys2Proof.Machine

variable {c : Config}

@[simp] theorem beginCycle_beginCycle (b : Block c) : beginCycle (beginCycle b) = beginCycle b := rfl

/-! ## Each micro-operation adds its outputs to those already there -/

@[simp] theorem quiet_union (o : Outputs) : Outputs.quiet.union o = o := by
  simp [Outputs.union, Outputs.quiet]

@[simp] theorem union_quiet (o : Outputs) : o.union Outputs.quiet = o := by
  simp [Outputs.union, Outputs.quiet]

theorem done_out (b : Block c) :
    done b = { done (beginCycle b) with out := b.out.union (done (beginCycle b)).out } := by
  rw [done_eq, done_eq]
  simp

theorem tmr_out (b : Block c) :
    tmr b = { tmr (beginCycle b) with out := b.out.union (tmr (beginCycle b)).out } := by
  refine tmr_elim (P := fun r =>
    r = { tmr (beginCycle b) with out := b.out.union (tmr (beginCycle b)).out }) b ?_ ?_ ?_ ?_
  · intro h
    rw [tmr_noMatch (b := beginCycle b) h]
    simp
  · intro h hg
    rw [tmr_match (b := beginCycle b) h, wdTick_closed (b := firedTimer (beginCycle b)) hg]
    simp [Outputs.union, Outputs.quiet, firedTimer]
  · intro h hg ht
    rw [tmr_match (b := beginCycle b) h, wdTick_counts (b := firedTimer (beginCycle b)) hg ht]
    simp [Outputs.union, Outputs.quiet, firedTimer]
  · intro h hg ht
    rw [tmr_match (b := beginCycle b) h, wdTick_timesOut (b := firedTimer (beginCycle b)) hg ht]
    simp [Outputs.union, Outputs.quiet, firedTimer]

theorem poll_out (k1 k2 : Bool) (b : Block c) :
    poll k1 k2 b =
      { poll k1 k2 (beginCycle b) with out := b.out.union (poll k1 k2 (beginCycle b)).out } := by
  refine poll_elim (P := fun r => r = { poll k1 k2 (beginCycle b) with
    out := b.out.union (poll k1 k2 (beginCycle b)).out }) b k1 k2
    (fun h => ?_) (fun h hp hk => ?_) (fun h hp hk hv => ?_) (fun h hp hk hv => ?_)
    (fun h hp hk => ?_) (fun h hp hk => ?_) (fun h hp h1 h2 => ?_) (fun h hp hk => ?_)
    (fun h hp h1 h2 => ?_) (fun h hp hk hc => ?_) (fun h hp hk hc hm => ?_)
    (fun h hp hk hc hm hv => ?_) (fun h hp hk hc hm hv => ?_)
  · rw [poll_suspended (b := beginCycle b) h]; simp
  · rw [poll_boot_bypass (b := beginCycle b) h hp hk]; simp [Outputs.union, Outputs.quiet]
  · rw [poll_boot_locked (b := beginCycle b) h hp hk hv]; simp [Outputs.union, Outputs.quiet]
  · rw [poll_boot_unlocked (b := beginCycle b) h hp hk hv]; simp [Outputs.union, Outputs.quiet]
  · rw [poll_bypass_press (b := beginCycle b) h hp hk]; simp [Outputs.union, Outputs.quiet, histAfter]
  · rw [poll_bypass_release (b := beginCycle b) h hp hk]; simp [Outputs.union, Outputs.quiet, histAfter]
  · rw [poll_bypass_none (b := beginCycle b) h hp h1 h2]; simp [Outputs.union, Outputs.quiet, histAfter]
  · rw [poll_run_press (b := beginCycle b) h hp hk]; simp [Outputs.union, Outputs.quiet, histAfter]
  · rw [poll_run_none (b := beginCycle b) h hp h1 h2]; simp [Outputs.union, Outputs.quiet, histAfter]
  · rw [poll_run_entry (b := beginCycle b) h hp hk hc]
    simp [Outputs.union, Outputs.quiet, histAfter, accAfter]
  · rw [poll_run_lock (b := beginCycle b) h hp hk hc hm]
    simp [Outputs.union, Outputs.quiet, histAfter, accAfter]
  · rw [poll_run_match (b := beginCycle b) h hp hk hc hm hv]
    simp [Outputs.union, Outputs.quiet, histAfter]
  · rw [poll_run_mismatch (b := beginCycle b) h hp hk hc hm hv]
    simp [Outputs.union, Outputs.quiet, histAfter]

/-! ## What a micro-operation never touches -/

/-- `TMR` leaves the store, its interface, the debouncer, the phase and the Mode alone. -/
theorem tmr_frame (b : Block c) :
    (tmr b).hist = b.hist ∧ (tmr b).pressed = b.pressed ∧ (tmr b).keyDown = b.keyDown ∧
      (tmr b).phase = b.phase ∧ (tmr b).mode = b.mode ∧ (tmr b).store = b.store ∧
      (tmr b).out.pressConfirmed = b.out.pressConfirmed ∧
      (tmr b).out.releaseConfirmed = b.out.releaseConfirmed ∧
      (tmr b).out.nvWrite = b.out.nvWrite ∧ (tmr b).out.nvRe = b.out.nvRe := by
  refine tmr_elim (P := fun r => r.hist = b.hist ∧ r.pressed = b.pressed ∧ r.keyDown = b.keyDown ∧
      r.phase = b.phase ∧ r.mode = b.mode ∧ r.store = b.store ∧
      r.out.pressConfirmed = b.out.pressConfirmed ∧ r.out.releaseConfirmed = b.out.releaseConfirmed ∧
      r.out.nvWrite = b.out.nvWrite ∧ r.out.nvRe = b.out.nvRe) b ?_ ?_ ?_ ?_ <;>
    intros <;> exact ⟨rfl, rfl, rfl, rfl, rfl, rfl, rfl, rfl, rfl, rfl⟩

/-- `POLL` leaves the timer and the events of the watchdog alone. -/
theorem poll_frame (k1 k2 : Bool) (b : Block c) :
    (poll k1 k2 b).tcnt = b.tcnt ∧ (poll k1 k2 b).tcmp = b.tcmp ∧
      (poll k1 k2 b).out.wdIrq = b.out.wdIrq ∧
      (poll k1 k2 b).out.entryTimedOut = b.out.entryTimedOut := by
  refine poll_elim (P := fun r => r.tcnt = b.tcnt ∧ r.tcmp = b.tcmp ∧ r.out.wdIrq = b.out.wdIrq ∧
      r.out.entryTimedOut = b.out.entryTimedOut) b k1 k2
    ?_ ?_ ?_ ?_ ?_ ?_ ?_ ?_ ?_ ?_ ?_ ?_ ?_ <;> intros <;> exact ⟨rfl, rfl, rfl, rfl⟩

/-- The timer registers and the interrupt output set, as `TMR` sets them. -/
def setTimer (n t : BitVec c.timerWidth) (irq : Bool) (b : Block c) : Block c :=
  { b with tcnt := n, tcmp := t, out := { b.out with wdIrq := irq } }

/-- `POLL` neither reads nor writes the timer, so it commutes with setting it. -/
theorem poll_setTimer (n t : BitVec c.timerWidth) (irq k1 k2 : Bool) (b : Block c) :
    poll k1 k2 (setTimer n t irq b) = setTimer n t irq (poll k1 k2 b) := by
  refine poll_elim (P := fun r => poll k1 k2 (setTimer n t irq b) = setTimer n t irq r) b k1 k2
    (fun h => ?_) (fun h hp hk => ?_) (fun h hp hk hv => ?_) (fun h hp hk hv => ?_)
    (fun h hp hk => ?_) (fun h hp hk => ?_) (fun h hp h1 h2 => ?_) (fun h hp hk => ?_)
    (fun h hp h1 h2 => ?_) (fun h hp hk hc => ?_) (fun h hp hk hc hm => ?_)
    (fun h hp hk hc hm hv => ?_) (fun h hp hk hc hm hv => ?_)
  · rw [poll_suspended (b := setTimer n t irq b) h]
  · rw [poll_boot_bypass (b := setTimer n t irq b) h hp hk]; rfl
  · rw [poll_boot_locked (b := setTimer n t irq b) h hp hk hv]; rfl
  · rw [poll_boot_unlocked (b := setTimer n t irq b) h hp hk hv]; rfl
  · rw [poll_bypass_press (b := setTimer n t irq b) h hp hk]; rfl
  · rw [poll_bypass_release (b := setTimer n t irq b) h hp hk]; rfl
  · rw [poll_bypass_none (b := setTimer n t irq b) h hp h1 h2]; rfl
  · rw [poll_run_press (b := setTimer n t irq b) h hp hk]; rfl
  · rw [poll_run_none (b := setTimer n t irq b) h hp h1 h2]; rfl
  · rw [poll_run_entry (b := setTimer n t irq b) h hp hk hc]; rfl
  · rw [poll_run_lock (b := setTimer n t irq b) h hp hk hc hm]; rfl
  · rw [poll_run_match (b := setTimer n t irq b) h hp hk hc hm hv]; rfl
  · rw [poll_run_mismatch (b := setTimer n t irq b) h hp hk hc hm hv]; rfl

/-- What `POR` and the start of a cycle give and every micro-operation keeps holds after the cycle. -/
theorem cycle_induction {P : Block c → Prop} (i : Instr) (b : Block c) (start : P (beginCycle b))
    (reset : i = .por → P (por (beginCycle b))) (onDone : ∀ b, P b → P (done b))
    (onTmr : ∀ b, P b → P (tmr b)) (onPoll : ∀ k1 k2 b, P b → P (poll k1 k2 b)) : P (cycleOf i b) := by
  cases i with
  | por => exact reset rfl
  | idle => exact start
  | poll k1 k2 => exact onPoll k1 k2 _ start
  | tmr => exact onTmr _ start
  | tmrPoll k1 k2 => exact onPoll k1 k2 _ (onTmr _ start)
  | done => exact onDone _ start
  | donePoll k1 k2 => exact onPoll k1 k2 _ (onDone _ start)
  | doneTmr => exact onTmr _ (onDone _ start)
  | doneTmrPoll k1 k2 => exact onPoll k1 k2 _ (onTmr _ (onDone _ start))

/-! ## A cycle depends on the registers and the store alone -/

theorem cycleOf_registers (i : Instr) (b : Block c) : cycleOf i (registers b) = cycleOf i b := by
  cases i <;> rfl

theorem registers_cyclesOf (ws : List Stim) {b b' : Block c} (h : registers b = registers b') :
    registers (cyclesOf ws b) = registers (cyclesOf ws b') := by
  induction ws generalizing b b' with
  | nil => exact h
  | cons w ws ih =>
    refine ih (b := cycleOf (decode w) b) (b' := cycleOf (decode w) b') ?_
    rw [← cycleOf_registers _ b, ← cycleOf_registers _ b', h]

/-- The encoder's word of a poll is a poll. -/
theorem decode_encode_poll (k1 k2 : Bool) : decode (encode (.poll k1 k2)) = .poll k1 k2 := by
  revert k1 k2
  decide

/-! ## The invariants on the way -/

/-- An entry in progress belongs to a running block with no strobe outstanding (R42 I1, I2). -/
theorem phase_of_gate {b : Block c} (h : Invariants b) (hg : b.gate = true) :
    b.phase = .run ∧ b.fb = .none := by
  constructor
  · by_contra hp
    have := (h.i2 hp).2.1
    simp [hg] at this
  · by_contra hf
    have := (h.i1 hf).2.1
    simp [hg] at this

end Sys2Proof.Machine
end

