-- ==== Sys2Proof/Laws/Memory.lean ====
section
/-! SUPPORT. The laws of the store: read after write, and that a write keeps the canonical form. -/

namespace Sys2Proof.Machine

variable {u v : Byte} {m : Memory} {a : Nat}

/-- Every listed address lies above `a`. -/
abbrev Memory.above (a : Nat) (m : Memory) : Prop := ∀ x ∈ m, a < x.1

theorem wf_iff : Memory.wf u m = true ↔
    m.Pairwise (fun x y => x.1 < y.1) ∧ ∀ x ∈ m, x.1 = storeAddr ∧ x.2 ≠ u := by
  simp [Memory.wf]

theorem wf_nil : Memory.wf u [] = true := by simp [wf_iff]

theorem byteAt_of_above (h : m.above a) : Memory.byteAt u m a = u := by
  induction m with
  | nil => rfl
  | cons x m ih =>
    have hx := h x (by simp)
    have hne : (a == x.1) = false := by simp; omega
    simpa [Memory.byteAt, List.lookup, hne] using ih fun y hy => h y (by simp [hy])

theorem mem_write {x : Host.Cell} (h : x ∈ Memory.write u m a v) : x ∈ m ∨ (x = (a, v) ∧ v ≠ u) := by
  induction m with
  | nil => simp only [Memory.write] at h; split at h <;> simp_all
  | cons y m ih =>
    simp only [Memory.write] at h
    split_ifs at h <;> simp at h ⊢ <;> tauto

theorem pairwise_write (h : m.Pairwise fun x y => x.1 < y.1) :
    (Memory.write u m a v).Pairwise fun x y => x.1 < y.1 := by
  induction m with
  | nil => simp only [Memory.write]; split <;> simp
  | cons y m ih =>
    obtain ⟨hy, hm⟩ := List.pairwise_cons.mp h
    simp only [Memory.write]
    split_ifs with h1 h2 h3 h4
    · exact h
    · refine List.pairwise_cons.mpr ⟨fun x hx => ?_, h⟩
      rcases List.mem_cons.mp hx with rfl | hx
      · exact h1
      · exact Nat.lt_trans h1 (hy x hx)
    · exact hm
    · exact List.pairwise_cons.mpr ⟨fun x hx => h3 ▸ hy x hx, hm⟩
    · refine List.pairwise_cons.mpr ⟨fun x hx => ?_, ih hm⟩
      rcases mem_write hx with hx | ⟨rfl, -⟩
      · exact hy x hx
      · show y.1 < a
        omega

/-- Every write to an address that exists keeps the canonical form. -/
theorem wf_write (h : Memory.wf u m = true) : Memory.wf u (Memory.write u m storeAddr v) = true := by
  obtain ⟨hp, hm⟩ := wf_iff.mp h
  refine wf_iff.mpr ⟨pairwise_write hp, fun x hx => ?_⟩
  rcases mem_write hx with hx | ⟨rfl, hv⟩
  · exact hm x hx
  · exact ⟨rfl, hv⟩

/-- A write is read back. -/
theorem byteAt_write_same (h : m.Pairwise fun x y => x.1 < y.1) :
    Memory.byteAt u (Memory.write u m a v) a = v := by
  induction m with
  | nil => by_cases hv : v = u <;> simp [Memory.write, hv, Memory.byteAt]
  | cons y m ih =>
    obtain ⟨hy, hm⟩ := List.pairwise_cons.mp h
    simp only [Memory.write]
    split_ifs with h1 h2 h3 h4
    · rw [h2]
      refine byteAt_of_above fun x hx => ?_
      rcases List.mem_cons.mp hx with rfl | hx
      · exact h1
      · exact Nat.lt_trans h1 (hy x hx)
    · simp [Memory.byteAt, List.lookup]
    · rw [h4]
      exact byteAt_of_above fun x hx => h3 ▸ hy x hx
    · simp [Memory.byteAt, List.lookup]
    · have hne : (a == y.1) = false := by simp; omega
      simpa [Memory.byteAt, List.lookup, hne] using ih hm

/-- The byte at address 23 after a write there. -/
theorem nv_write {c : Config} {b : Block c} (h : Memory.wf c.nv0 b.store = true) :
    Memory.byteAt c.nv0 (Memory.write c.nv0 b.store storeAddr v) storeAddr = v :=
  byteAt_write_same (wf_iff.mp h).1

/-- `nv` after `save`. -/
theorem nv_save {c : Config} {b : Block c} (h : Memory.wf c.nv0 b.store = true) : (save v b).nv = v :=
  nv_write h

/-- `save` keeps the canonical form. -/
theorem wf_save {c : Config} {b : Block c} (h : Memory.wf c.nv0 b.store = true) :
    Memory.wf c.nv0 (save v b).store = true :=
  wf_write h

/-- The one address that exists reads as `nv`. -/
theorem read_storeAddr {c : Config} (b : Block c) : Memory.read c.nv0 b.store storeAddr = some b.nv := by
  simp [Memory.read, Block.nv]

end Sys2Proof.Machine
end

