-- ==== Sys2Proof/Laws/PerInstr.lean ====
section
/-! SUPPORT. Per operation: the encoder's word carries 0 in every bit the operation does not read
(`30_encoding.md` R71). -/

namespace Sys2Proof.Laws.EncodeCanonical

/-- The bits of a word the operation's class does not read. -/
def unread : Instr → Stim
  | .por => 0x1F#6
  | .idle => 0x03#6
  | .poll _ _ => 0x00#6
  | .tmr => 0x03#6
  | .tmrPoll _ _ => 0x00#6
  | .done => 0x03#6
  | .donePoll _ _ => 0x00#6
  | .doneTmr => 0x03#6
  | .doneTmrPoll _ _ => 0x00#6

def Statement (i : Instr) : Prop := encode i &&& unread i = 0#6

theorem por : Statement .por := by unfold Statement; decide
theorem idle : Statement .idle := by unfold Statement; decide
theorem poll (k1 k2 : Bool) : Statement (.poll k1 k2) := by unfold Statement; revert k1 k2; decide
theorem tmr : Statement .tmr := by unfold Statement; decide
theorem tmrPoll (k1 k2 : Bool) : Statement (.tmrPoll k1 k2) := by unfold Statement; revert k1 k2; decide
theorem done : Statement .done := by unfold Statement; decide
theorem donePoll (k1 k2 : Bool) : Statement (.donePoll k1 k2) := by unfold Statement; revert k1 k2; decide
theorem doneTmr : Statement .doneTmr := by unfold Statement; decide
theorem doneTmrPoll (k1 k2 : Bool) : Statement (.doneTmrPoll k1 k2) := by
  unfold Statement; revert k1 k2; decide

end Sys2Proof.Laws.EncodeCanonical
end

