-- ==== Sys2Proof/Tests/Slice0.lean ====
section
/-! SUPPORT. Tests. Expected results are those of `spec/95_test_vectors.md` (the vector is named in each
docstring) or are written out by hand from the encoding rules. The second half holds, for each statement
of `Certificates/Slice0/Obligations.lean` that has hypotheses, concrete data that meet them. -/

namespace Sys2Proof.Tests

open Sys2Proof.Machine

/-! ## Parameters outside their constraints are refused -/

def cfg : Config := Config.cfgT 0x00#8

theorem test_cfgT_is_well_formed : cfg.wf = true := by decide
theorem test_depth_zero_is_ill_formed : { cfg with depth := 0 }.wf = false := by decide
theorem test_marker_zero_is_ill_formed : { cfg with marker := 0b00#2 }.wf = false := by decide
theorem test_timeout_zero_is_ill_formed : { cfg with timeoutTicks := 0 }.wf = false := by decide
theorem test_timeout_256_is_ill_formed : { cfg with timeoutTicks := 256 }.wf = false := by decide
theorem test_timer_step_zero_is_ill_formed : { cfg with timerStep := 0 }.wf = false := by decide
theorem test_timer_step_too_wide_is_ill_formed : { cfg with timerStep := 65536 }.wf = false := by decide
theorem test_extreme_parameters_are_well_formed :
    { cfg with depth := 1, marker := 0b01#2, timeoutTicks := 255, timerStep := 65535 }.wf = true ∧
    { cfg with timeoutTicks := 1, timerStep := 1, timerWidth := 1 }.wf = true := by decide
theorem test_every_operation_is_well_formed :
    ∀ k1 k2 : Bool, ∀ i ∈ [Instr.por, .idle, .poll k1 k2, .tmr, .tmrPoll k1 k2, .done, .donePoll k1 k2,
      .doneTmr, .doneTmrPoll k1 k2], i.wf = true := by decide

/-! ## Words, written out bit by bit from R70 and R72: por, ind_done, tmr_en, poll_en, k1, k2 -/

theorem test_decode_por : decode 0b100000#6 = .por ∧ decode 0b111111#6 = .por := by decide
theorem test_decode_idle : decode 0b000000#6 = .idle ∧ decode 0b000010#6 = .idle := by decide
theorem test_decode_poll : decode 0b000110#6 = .poll true false ∧ decode 0b000101#6 = .poll false true := by
  decide
theorem test_decode_tmr : decode 0b001000#6 = .tmr ∧ decode 0b001011#6 = .tmr := by decide
theorem test_decode_tmrPoll : decode 0b001101#6 = .tmrPoll false true := by decide
theorem test_decode_done : decode 0b010000#6 = .done := by decide
theorem test_decode_donePoll : decode 0b010110#6 = .donePoll true false := by decide
theorem test_decode_doneTmr : decode 0b011000#6 = .doneTmr := by decide
theorem test_decode_doneTmrPoll : decode 0b011101#6 = .doneTmrPoll false true := by decide
/-- Bits above the six lines, and an empty sequence, are rejected by name. -/
theorem test_decode_rejects :
    decodeBytes [0x40#8] = .error .bitsAboveWord ∧ decodeBytes [] = .error .noWord ∧
    decodeTableWord 8 0x40 = none ∧ decodeTableWord 6 0x0C = some (.tmrPoll false false) := by decide

/-! ## Data encodings (R80, R82) -/

/-- Vector S7: digits 1,0,1,1,0,1 under the marker 11. -/
theorem test_code_byte : codeByte cfg [true, false, true, true, false, true] = 0xED#8 := by decide
theorem test_pin_codes :
    [VisualState.red, .blue, .green, .yellow, .off, .yellowStrobeWithRed, .yellowStrobeNoRed].map (·.code)
      = [0#3, 1#3, 2#3, 3#3, 4#3, 5#3, 6#3] ∧
    [Phase.boot, .bypass, .run].map (·.code) = [0#2, 1#2, 2#2] ∧
    [Mode.unlocked, .locked].map (·.code) = [0#1, 1#1] ∧
    [Feedback.none, .timeoutAbort, .errorFeedback].map (·.code) = [0#2, 1#2, 2#2] := by decide

/-! ## One step of each operation -/

/-- A block of `CFG_T` in RUN with nothing pressed ("Ready Unlocked", "Ready Locked" of the vectors). -/
def ready (nv0 : Byte) (m : Mode) : Block (Config.cfgT nv0) :=
  { Block.reset _ [] with phase := .run, mode := m }

/-- `ready`, one sample before a release is confirmed, with `n` entries made. -/
def releasing (nv0 : Byte) (m : Mode) (digit : Bool) (acc : Byte) (n : Fin 6) : Block (Config.cfgT nv0) :=
  { ready nv0 m with
    hist := 0x80#8, pressed := true, keyDown := digit, acc := acc, count := n, gate := n != 0 }

/-- `releasing`, one timer count before a compare match, with `t` ticks counted. -/
def lastCount (t : Byte) : Block (Config.cfgT 0x00#8) :=
  { releasing 0x00#8 .unlocked false 0x07#8 1 with ticks := t, tcnt := 11#16, tcmp := 12#16 }

/-- `ready` with a strobe outstanding. -/
def strobing (nv0 : Byte) (m : Mode) (f : Feedback) : Block (Config.cfgT nv0) :=
  { ready nv0 m with fb := f, ind := .yellowStrobeWithRed }

/-- The operation answers a next state, and `p` holds of it. -/
def runs {c : Config} (i : Instr) (b : Block c) (p : State → Bool) : Bool :=
  match exec i ⟨c, b, []⟩ with
  | .next s => p s
  | .fault _ => false
  | .refused _ => false

/-- Program P6, word 34: a power loss with two entries made keeps the code and nothing else. -/
theorem test_por : runs .por (releasing 0xED#8 .locked false 0x0E#8 2) fun s =>
    s.block.phase == .boot && s.block.acc == 0x03#8 && s.block.count == 0 && !s.block.gate &&
    !s.block.pressed && s.block.nv == 0xED#8 && s.block.ind == .off := by decide

/-- Vector B9. -/
theorem test_idle : runs .idle { releasing 0x00#8 .unlocked true 0x03#8 0 with
      out := { Outputs.quiet with wdIrq := true } } fun s =>
    s.block.hist.toNat == 0x80 && s.block.pressed && s.block.out == Outputs.quiet := by decide

/-- Vector D4: both keys held at the confirming tick is key-1. -/
theorem test_poll_press : runs (.poll true true) { ready 0x00#8 .unlocked with hist := 0x7F#8 } fun s =>
    s.block.hist.toNat == 0xFF && s.block.pressed && s.block.keyDown && s.block.ind == .blue &&
    s.block.out.pressConfirmed && s.block.out.indWrites == [.green, .yellow, .blue] := by decide

/-- Vector L8: the attempt 0xEC against the stored 0xED. -/
theorem test_poll_mismatch :
    runs (.poll false false) (releasing 0xED#8 .locked false 0x76#8 5) fun s =>
      s.block.mode == .locked && s.block.fb == .errorFeedback && s.block.acc == 0x03#8 &&
      s.block.count == 0 && !s.block.gate && s.block.nv == 0xED#8 && s.block.out.nvRe &&
      s.block.out.nvWrite == none && s.block.out.indWrites == [.red, .yellowStrobeWithRed] := by decide

/-- Vector W6, words 7 and 9: with TW = 3 the counter wraps, and the third match comes at 1. -/
theorem test_tmr_wraps :
    (let c : Config := { cfg with timerWidth := 3, timerStep := 3 }
     let b : Block c := { Block.reset c [] with tcnt := 7#3, tcmp := 1#3 }
     runs .tmr b fun s => s.block.tcnt.toNat == 0 && s.block.tcmp.toNat == 1 && !s.block.out.wdIrq) ∧
    (let c : Config := { cfg with timerWidth := 3, timerStep := 3 }
     let b : Block c := { Block.reset c [] with tcnt := 0#3, tcmp := 1#3 }
     runs .tmr b fun s => s.block.tcnt.toNat == 1 && s.block.tcmp.toNat == 4 && s.block.out.wdIrq) := by
  decide

/-- Vector W2, the twelfth word. -/
theorem test_tmr_timeout : runs .tmr (lastCount 2#8) fun s =>
    s.block.out.wdIrq && s.block.out.entryTimedOut && !s.block.gate && s.block.ticks == 0#8 &&
    s.block.count == 0 && s.block.acc == 0x03#8 && s.block.fb == .timeoutAbort &&
    s.block.ind == .yellowStrobeNoRed && s.block.tcnt.toNat == 12 && s.block.tcmp.toNat == 16 := by decide

/-- Program P7b, word 44 (vector B14): the poll first makes the entry and restarts the count. -/
theorem test_poll_release_first : runs (.poll false false) (lastCount 2#8) fun s =>
    s.block.out.releaseConfirmed && s.block.acc == 0x0E#8 && s.block.count == 2 && s.block.gate &&
    s.block.ticks == 0#8 && s.block.tcnt.toNat == 11 := by decide

/-- Program P7b, word 45 (vector B14): the timer in the cycle after it counts to 1. -/
theorem test_tmr_after_release :
    runs .tmr { ready 0x00#8 .unlocked with
        acc := 0x0E#8, count := 2, gate := true, tcnt := 11#16, tcmp := 12#16 } fun s =>
      s.block.out.wdIrq && !s.block.out.entryTimedOut && s.block.fb == .none && s.block.ticks == 1#8 &&
      s.block.count == 2 && s.block.tcnt.toNat == 12 && s.block.tcmp.toNat == 16 := by decide

/-- Program P7, word 44 (vector B13): the timeout wins and the release is not confirmed. -/
theorem test_tmrPoll_timeout_first : runs (.tmrPoll false false) (lastCount 2#8) fun s =>
    s.block.out.entryTimedOut && !s.block.out.releaseConfirmed && s.block.hist.toNat == 0x80 &&
    s.block.pressed && s.block.out.indWrites == [.yellowStrobeNoRed] := by decide

/-- R75, below the threshold: the tick counts to 2, then the release restarts it. -/
theorem test_tmrPoll_both : runs (.tmrPoll false false) (lastCount 1#8) fun s =>
    s.block.out.wdIrq && s.block.out.releaseConfirmed && s.block.acc == 0x0E#8 && s.block.count == 2 &&
    s.block.ticks == 0#8 && s.block.tcnt.toNat == 12 := by decide

/-- Vector F4: the latch still shows the strobe. -/
theorem test_done_ends_strobe : runs .done (strobing 0xED#8 .locked .errorFeedback) fun s =>
    s.block.fb == .none && s.block.ind == .yellowStrobeWithRed && s.block.mode == .locked &&
    s.block.out == Outputs.quiet := by decide

/-- Program P4, word 85: a `DONE` in the cycle after a timeout ends the strobe of that timeout. -/
theorem test_done_after_timeout :
    runs .done { ready 0x00#8 .unlocked with
        fb := .timeoutAbort, hist := 0xFF#8, pressed := true, ind := .yellowStrobeNoRed } fun s =>
      s.block.fb == .none && s.block.mode == .unlocked && s.block.pressed &&
      s.block.ind == .yellowStrobeNoRed := by decide

/-- Vector F6: the poll of the same cycle already runs. -/
theorem test_donePoll : runs (.donePoll true false) (strobing 0x00#8 .unlocked .timeoutAbort) fun s =>
    s.block.fb == .none && s.block.hist.toNat == 0x01 && s.block.out.indWrites == [.green, .yellow] := by
  decide

/-- Program P7, word 45. -/
theorem test_donePoll_entry :
    runs (.donePoll false false)
      { releasing 0x00#8 .unlocked false 0x03#8 0 with fb := .timeoutAbort } fun s =>
      s.block.fb == .none && s.block.hist.toNat == 0 && s.block.acc == 0x06#8 && s.block.count == 1 &&
      s.block.gate && s.block.out.releaseConfirmed := by decide

/-- R73: `DONE` comes before `TMR`, so it does not end the strobe that the timeout begins. -/
theorem test_doneTmr_order : runs .doneTmr (lastCount 2#8) fun s =>
    s.block.fb == .timeoutAbort && s.block.out.entryTimedOut && s.block.out.wdIrq := by decide

/-- R75: the strobe ends and the timer counts. -/
theorem test_doneTmr : runs .doneTmr (strobing 0xED#8 .locked .errorFeedback) fun s =>
    s.block.fb == .none && s.block.tcnt.toNat == 1 && s.block.out == Outputs.quiet := by decide

/-- R75: the strobe ends, the timer counts, and the poll of the same cycle runs. -/
theorem test_doneTmrPoll :
    runs (.doneTmrPoll false true)
      { strobing 0xED#8 .locked .errorFeedback with tcnt := 3#16, tcmp := 4#16 } fun s =>
      s.block.fb == .none && s.block.tcnt.toNat == 4 && s.block.tcmp.toNat == 8 && s.block.out.wdIrq &&
      s.block.hist.toNat == 1 && s.block.out.indWrites == [.red] := by decide

/-- R75, R204 (a): the timeout of the same cycle suspends the poll. -/
theorem test_doneTmrPoll_timeout : runs (.doneTmrPoll false false) (lastCount 2#8) fun s =>
    s.block.fb == .timeoutAbort && s.block.hist.toNat == 0x80 && s.block.out.entryTimedOut &&
    !s.block.out.releaseConfirmed := by decide

/-- Vector D12, word 1: with N = 1 one sample confirms. -/
theorem test_depth_one :
    let c : Config := { cfg with depth := 1 }
    let b : Block c := { Block.reset c [] with phase := .run, mode := .unlocked }
    runs (.poll true false) b fun s =>
      s.block.out.pressConfirmed && s.block.pressed && s.block.keyDown && s.block.hist.toNat == 1 := by
  decide

/-- The step consumes the listed word; with none listed it is `IDLE` (log 3). -/
theorem test_step :
    (match step ⟨_, ready 0x00#8 .unlocked, [0x08#6, 0x04#6]⟩ with
      | .next s => s.block.tcnt.toNat == 1 && s.stim == [0x04#6]
      | .fault _ => false
      | .refused _ => false) = true ∧
    (match step ⟨_, ready 0x00#8 .unlocked, []⟩ with
      | .next s => s.block.tcnt.toNat == 0 && s.stim == []
      | .fault _ => false
      | .refused _ => false) = true := by decide

/-- The word placed is the one the next step runs. -/
theorem test_withFetchWord :
    nextWord (State.reset.withFetchWord 8 0x1D) = 0x1D#6 ∧
    (State.reset.withFetchWord 6 0x20).stim = [0x20#6] ∧
    (State.withFetchWord ⟨cfg, ready 0x00#8 .unlocked, [0x04#6, 0x05#6]⟩ 8 0x08).stim = [0x08#6, 0x05#6] := by
  decide

/-! ## Data that meet the hypotheses of the statements -/

/-- Two entries made, a release about to be confirmed. -/
def entering : Block (Config.cfgT 0x00#8) := releasing 0x00#8 .unlocked false 0x0E#8 2

theorem witness_inv_ready_unlocked : Inv ⟨_, ready 0x00#8 .unlocked, []⟩ :=
  ⟨by decide, by decide, ⟨by decide, by decide, by decide, by decide, by decide, by decide, by decide,
    by decide, by decide, by decide⟩⟩
theorem witness_inv_ready_locked : Inv ⟨_, ready 0xED#8 .locked, []⟩ :=
  ⟨by decide, by decide, ⟨by decide, by decide, by decide, by decide, by decide, by decide, by decide,
    by decide, by decide, by decide⟩⟩
theorem witness_inv_entering : Inv ⟨_, entering, []⟩ :=
  ⟨by decide, by decide, ⟨by decide, by decide, by decide, by decide, by decide, by decide, by decide,
    by decide, by decide, by decide⟩⟩
theorem witness_inv_sixth_unlocked : Inv ⟨_, releasing 0x00#8 .unlocked true 0x76#8 5, []⟩ :=
  ⟨by decide, by decide, ⟨by decide, by decide, by decide, by decide, by decide, by decide, by decide,
    by decide, by decide, by decide⟩⟩
theorem witness_inv_sixth_locked : Inv ⟨_, releasing 0xED#8 .locked true 0x76#8 5, []⟩ :=
  ⟨by decide, by decide, ⟨by decide, by decide, by decide, by decide, by decide, by decide, by decide,
    by decide, by decide, by decide⟩⟩
theorem witness_inv_strobing : Inv ⟨_, strobing 0xED#8 .locked .errorFeedback, []⟩ :=
  ⟨by decide, by decide, ⟨by decide, by decide, by decide, by decide, by decide, by decide, by decide,
    by decide, by decide, by decide⟩⟩
theorem witness_inv_lastCount : Inv ⟨_, lastCount 2#8, []⟩ :=
  ⟨by decide, by decide, ⟨by decide, by decide, by decide, by decide, by decide, by decide, by decide,
    by decide, by decide, by decide⟩⟩
theorem witness_inv_foreign : Inv ⟨_, ready 0x05#8 .locked, []⟩ :=
  ⟨by decide, by decide, ⟨by decide, by decide, by decide, by decide, by decide, by decide, by decide,
    by decide, by decide, by decide⟩⟩

theorem witness_UnreadBitsAreIgnored :
    (Stim.por 0x20#6 = true ∧ Stim.por 0x3F#6 = true) ∧
    (Stim.por 0x0B#6 = false ∧ Stim.pollEn 0x0B#6 = false ∧ 0x08#6 &&& 0x3C#6 = 0x0B#6 &&& 0x3C#6) := by
  decide

theorem witness_StepRunsTheDecodedWord : (Config.cfgT 0xED#8).wf = true := by decide
theorem witness_NoListedWordIsIdle : (Config.cfgT 0x00#8).wf = true := by decide
theorem witness_EveryWordRuns : { cfg with depth := 1 }.wf = true := by decide

/-- One machine for each constraint, at its boundary. -/
theorem witness_BadConfigurationRefused :
    (State.powerUp { cfg with depth := 0 }).cfg.depth = 0 ∧
    (State.powerUp { cfg with marker := 0#2 }).cfg.marker = 0#2 ∧
    (State.powerUp { cfg with timeoutTicks := 0 }).cfg.timeoutTicks = 0 ∧
    255 < (State.powerUp { cfg with timeoutTicks := 256 }).cfg.timeoutTicks ∧
    (State.powerUp { cfg with timerStep := 0 }).cfg.timerStep = 0 ∧
    (let s := State.powerUp { cfg with timerStep := 65536 }
     2 ^ s.cfg.timerWidth ≤ s.cfg.timerStep) := by decide

theorem witness_CycleAppliesEnabledMicroOps : Stim.por 0x3F#6 = true ∧ Stim.por 0x1F#6 = false := by decide

/-- The premise is `witness_inv_lastCount` (times out) and `witness_inv_strobing` (does not). -/
theorem witness_DoneAndTmrCommuteUnlessItTimesOut :
    Inv ⟨_, lastCount 2#8, []⟩ ∧ Inv ⟨_, strobing 0xED#8 .locked .errorFeedback, []⟩ ∧
    runs .tmr (lastCount 2#8) (fun s => s.block.out.entryTimedOut) ∧
    runs .tmr (strobing 0xED#8 .locked .errorFeedback) (fun s => !s.block.out.entryTimedOut) :=
  ⟨witness_inv_lastCount, witness_inv_strobing, by decide, by decide⟩

/-- With a timeout, with a strobe outstanding, and with neither. -/
theorem witness_DoneAndTmrCommuteWithinACycle :
    Inv ⟨_, lastCount 2#8, []⟩ ∧ Inv ⟨_, strobing 0xED#8 .locked .errorFeedback, []⟩ ∧
    Inv ⟨_, ready 0x00#8 .unlocked, []⟩ ∧
    runs .doneTmr (lastCount 2#8) (fun s => s.block.fb == .timeoutAbort) :=
  ⟨witness_inv_lastCount, witness_inv_strobing, witness_inv_ready_unlocked, by decide⟩

theorem witness_inv_sixth_locked_wrong : Inv ⟨_, releasing 0xED#8 .locked false 0x76#8 5, []⟩ :=
  ⟨by decide, by decide, ⟨by decide, by decide, by decide, by decide, by decide, by decide, by decide,
    by decide, by decide, by decide⟩⟩

/-- A strobe outstanding; a mismatch; neither. -/
theorem witness_DoneBeforePollMattersExactlyHere :
    (Inv ⟨_, strobing 0xED#8 .locked .errorFeedback, []⟩ ∧
      (strobing 0xED#8 .locked .errorFeedback).fb ≠ .none) ∧
    (Inv ⟨_, releasing 0xED#8 .locked false 0x76#8 5, []⟩ ∧
      MismatchNow (releasing 0xED#8 .locked false 0x76#8 5) false false) ∧
    (Inv ⟨_, releasing 0xED#8 .locked true 0x76#8 5, []⟩ ∧
      (releasing 0xED#8 .locked true 0x76#8 5).fb = .none ∧
      ¬ MismatchNow (releasing 0xED#8 .locked true 0x76#8 5) false false) :=
  ⟨⟨witness_inv_strobing, by decide⟩, ⟨witness_inv_sixth_locked_wrong, by decide⟩,
   ⟨witness_inv_sixth_locked, by decide, by decide⟩⟩

/-- The first release of a code, one timer count before a match. -/
def firstRelease : Block (Config.cfgT 0x00#8) :=
  { releasing 0x00#8 .unlocked true 0x03#8 0 with tcnt := 11#16, tcmp := 12#16 }

theorem witness_inv_firstRelease : Inv ⟨_, firstRelease, []⟩ :=
  ⟨by decide, by decide, ⟨by decide, by decide, by decide, by decide, by decide, by decide, by decide,
    by decide, by decide, by decide⟩⟩

/-- The sixth release of a code, one timer count before a match below the threshold. -/
def sixthRelease : Block (Config.cfgT 0x00#8) :=
  { releasing 0x00#8 .unlocked true 0x76#8 5 with tcnt := 11#16, tcmp := 12#16 }

theorem witness_inv_sixthRelease : Inv ⟨_, sixthRelease, []⟩ :=
  ⟨by decide, by decide, ⟨by decide, by decide, by decide, by decide, by decide, by decide, by decide,
    by decide, by decide, by decide⟩⟩

/-- A timeout (vector B13); an entry, with the gate closed before it; a completion, where it does not matter. -/
theorem witness_TmrBeforePollMattersExactlyHere :
    (Inv ⟨_, lastCount 2#8, []⟩ ∧ MatchNow (lastCount 2#8) ∧ TimeoutDue (lastCount 2#8)) ∧
    (Inv ⟨_, firstRelease, []⟩ ∧ MatchNow firstRelease ∧ ¬ TimeoutDue firstRelease ∧
      EntryNow firstRelease false false) ∧
    (Inv ⟨_, sixthRelease, []⟩ ∧ MatchNow sixthRelease ∧ sixthRelease.gate = true ∧
      ReleaseNow sixthRelease false false ∧ ¬ TimeoutDue sixthRelease ∧
      ¬ EntryNow sixthRelease false false) :=
  ⟨⟨witness_inv_lastCount, by decide, by decide⟩,
   ⟨witness_inv_firstRelease, by decide, by decide, by decide⟩,
   ⟨witness_inv_sixthRelease, by decide, by decide, by decide, by decide, by decide⟩⟩

/-- A sixth release at a compare match below the threshold; a timeout, which changes `fb`; neither. -/
theorem witness_TickOfTheTmrMeetsThePollExactlyHere :
    (Inv ⟨_, sixthRelease, []⟩ ∧ MatchNow sixthRelease ∧ sixthRelease.gate = true ∧
      runs (.tmrPoll false false) sixthRelease (fun s =>
        s.block.out.releaseConfirmed && !s.block.out.entryTimedOut)) ∧
    (Inv ⟨_, lastCount 2#8, []⟩ ∧ (lastCount 2#8).fb = .none ∧
      runs .tmr (lastCount 2#8) (fun s => s.block.out.entryTimedOut && s.block.fb == .timeoutAbort)) ∧
    (Inv ⟨_, firstRelease, []⟩ ∧ MatchNow firstRelease ∧ firstRelease.gate = false) :=
  ⟨⟨witness_inv_sixthRelease, by decide, by decide, by decide⟩,
   ⟨witness_inv_lastCount, by decide, by decide⟩,
   ⟨witness_inv_firstRelease, by decide, by decide⟩⟩

/-- A timeout; a first release, with the gate open after it; a sixth, with the gate closed after it. -/
theorem witness_TmrAndPollOrdersDifferExactlyInTheSetOfR76 :
    (Inv ⟨_, lastCount 2#8, []⟩ ∧ runs .tmr (lastCount 2#8) (fun s => s.block.out.entryTimedOut)) ∧
    (Inv ⟨_, firstRelease, []⟩ ∧ MatchNow firstRelease ∧
      runs (.poll false false) firstRelease (fun s => s.block.gate && s.block.out.releaseConfirmed)) ∧
    (Inv ⟨_, sixthRelease, []⟩ ∧ MatchNow sixthRelease ∧
      runs (.poll false false) sixthRelease (fun s => !s.block.gate && s.block.out.releaseConfirmed)) :=
  ⟨⟨witness_inv_lastCount, by decide⟩, ⟨witness_inv_firstRelease, by decide, by decide⟩,
   ⟨witness_inv_sixthRelease, by decide, by decide⟩⟩

theorem witness_inv_lastCount_one : Inv ⟨_, lastCount 1#8, []⟩ :=
  ⟨by decide, by decide, ⟨by decide, by decide, by decide, by decide, by decide, by decide, by decide,
    by decide, by decide, by decide⟩⟩

/-- `firstRelease` in a block that times out at the first tick. -/
def firstReleaseOfOneTick : Block { cfg with timeoutTicks := 1 } :=
  { Block.reset { cfg with timeoutTicks := 1 } [] with
    phase := .run, mode := .unlocked, hist := 0x80#8, pressed := true, keyDown := true,
    tcnt := 11#16, tcmp := 12#16 }

theorem witness_inv_firstReleaseOfOneTick : Inv ⟨_, firstReleaseOfOneTick, []⟩ :=
  ⟨by decide, by decide, ⟨by decide, by decide, by decide, by decide, by decide, by decide, by decide,
    by decide, by decide, by decide⟩⟩

/-- The last tick of the countdown (vectors B13, B14); the one before it; a first release; TIMEOUT_TICKS = 1. -/
theorem witness_TickAndReleaseInBothOrders :
    (Inv ⟨_, lastCount 2#8, []⟩ ∧ MatchNow (lastCount 2#8) ∧ EntryNow (lastCount 2#8) false false ∧
      TimeoutDue (lastCount 2#8) ∧ 1 < cfg.timeoutTicks) ∧
    (Inv ⟨_, lastCount 1#8, []⟩ ∧ MatchNow (lastCount 1#8) ∧ EntryNow (lastCount 1#8) false false ∧
      ¬ TimeoutDue (lastCount 1#8)) ∧
    (Inv ⟨_, firstRelease, []⟩ ∧ MatchNow firstRelease ∧ EntryNow firstRelease false false ∧
      ¬ TimeoutDue firstRelease) ∧
    (Inv ⟨_, firstReleaseOfOneTick, []⟩ ∧ MatchNow firstReleaseOfOneTick ∧
      EntryNow firstReleaseOfOneTick false false) :=
  ⟨⟨witness_inv_lastCount, by decide, by decide, by decide, by decide⟩,
   ⟨witness_inv_lastCount_one, by decide, by decide, by decide⟩,
   ⟨witness_inv_firstRelease, by decide, by decide, by decide⟩,
   ⟨witness_inv_firstReleaseOfOneTick, by decide, by decide⟩⟩

theorem witness_IdleChangesNothingAndMayBeDropped :
    (State.powerUp cfg).cfg.wf = true ∧ withoutIdle [0x20#6, 0x00#6, 0x04#6, 0x03#6] = [0x20#6, 0x04#6] := by
  decide

theorem witness_PollSuspendedDuringStrobe : (strobing 0xED#8 .locked .errorFeedback).fb ≠ .none := by decide

/-- Vectors B4 to B6. -/
theorem witness_BootStepDecides :
    let empty := Block.reset (Config.cfgT 0x00#8) []
    let coded := Block.reset (Config.cfgT 0xED#8) []
    (empty.phase = .boot ∧ empty.fb = .none ∧ (false || false) = false ∧ empty.nv = 0x00#8) ∧
    (coded.phase = .boot ∧ coded.fb = .none ∧ (false || false) = false ∧ coded.nv ≠ 0x00#8) ∧
    (coded.phase = .boot ∧ coded.fb = .none ∧ (false || true) = true) := by decide

/-- A press, a release and neither, in BYPASS. -/
theorem witness_BypassWaitsForPressAndRelease :
    let b := Block.reset (Config.cfgT 0xED#8) []
    let pressing : Block _ := { b with phase := .bypass, hist := 0x7F#8 }
    let releasing : Block _ := { b with phase := .bypass, hist := 0x80#8, pressed := true }
    (pressing.phase = .bypass ∧ pressing.fb = .none ∧ PressNow pressing false true) ∧
    (releasing.phase = .bypass ∧ releasing.fb = .none ∧ ReleaseNow releasing false false) ∧
    (pressing.phase = .bypass ∧ pressing.fb = .none ∧ ¬ PressNow pressing false false ∧
      ¬ ReleaseNow pressing false false) := by decide

theorem witness_QuietRunPollShowsBackground :
    let b := ready 0x00#8 .unlocked
    b.phase = .run ∧ b.fb = .none ∧ ¬ PressNow b true false ∧ ¬ ReleaseNow b true false := by decide

theorem witness_PressInRunShowsBlue :
    let b : Block (Config.cfgT 0xED#8) := { ready 0xED#8 .locked with hist := 0x7F#8 }
    b.phase = .run ∧ b.fb = .none ∧ PressNow b true true := by decide

/-- Each clause: an entry below the sixth, and the sixth in each Mode. -/
theorem witness_ReleaseInRunMakesAnEntry :
    (let b := releasing 0x00#8 .unlocked true 0x3B#8 4
     b.phase = .run ∧ b.fb = .none ∧ ReleaseNow b false false ∧ b.count.val < 5) ∧
    (let b := releasing 0x00#8 .unlocked true 0x76#8 5
     b.phase = .run ∧ b.fb = .none ∧ ReleaseNow b false false ∧ b.count.val = 5 ∧ b.mode = .unlocked) ∧
    (let b := releasing 0xED#8 .locked true 0x76#8 5
     b.phase = .run ∧ b.fb = .none ∧ ReleaseNow b false false ∧ b.count.val = 5 ∧ b.mode = .locked) := by
  decide

/-- Vector L6. -/
theorem witness_SixthEntryLocks :
    let b := releasing 0x00#8 .unlocked true 0x76#8 5
    b.phase = .run ∧ b.fb = .none ∧ b.mode = .unlocked ∧ ReleaseNow b false false ∧ b.count.val = 5 ∧
    accAfter b = 0xED#8 := by decide

/-- Vectors L7 and L8. -/
theorem witness_CompletedAttemptIsCompared :
    (let b := releasing 0xED#8 .locked true 0x76#8 5
     b.phase = .run ∧ b.fb = .none ∧ b.mode = .locked ∧ ReleaseNow b false false ∧ b.count.val = 5 ∧
      b.nv = accAfter b) ∧
    (let b := releasing 0xED#8 .locked false 0x76#8 5
     b.phase = .run ∧ b.fb = .none ∧ b.mode = .locked ∧ ReleaseNow b false false ∧ b.count.val = 5 ∧
      b.nv ≠ accAfter b) := by decide

theorem witness_TmrCountsAndFiresAtMatch :
    (ready 0x00#8 .unlocked).tcnt + 1#_ ≠ (ready 0x00#8 .unlocked).tcmp ∧
    (lastCount 2#8).tcnt + 1#_ = (lastCount 2#8).tcmp := by decide

/-- Gate closed; one tick below the threshold; at it. -/
theorem witness_WatchdogTickCountsOrTimesOut :
    (let b : Block (Config.cfgT 0x00#8) := { ready 0x00#8 .unlocked with tcnt := 3#16 }
     b.tcnt + 1#_ = b.tcmp ∧ b.gate = false) ∧
    ((lastCount 1#8).tcnt + 1#_ = (lastCount 1#8).tcmp ∧ (lastCount 1#8).gate = true ∧
      ((lastCount 1#8).ticks + 1#8).toNat < cfg.timeoutTicks) ∧
    ((lastCount 2#8).tcnt + 1#_ = (lastCount 2#8).tcmp ∧ (lastCount 2#8).gate = true ∧
      cfg.timeoutTicks ≤ ((lastCount 2#8).ticks + 1#8).toNat) := by decide

theorem witness_DoneEndsTheStrobe :
    (strobing 0x00#8 .unlocked .timeoutAbort).fb ≠ .none ∧ (ready 0x00#8 .unlocked).fb = .none := by decide

/-- Vector B13. -/
theorem witness_TimeoutWinsOverPoll :
    (lastCount 2#8).tcnt + 1#_ = (lastCount 2#8).tcmp ∧ (lastCount 2#8).gate = true ∧
    cfg.timeoutTicks ≤ ((lastCount 2#8).ticks + 1#8).toNat := by decide

/-- The code saved by the sixth entry, then a power cycle, a boot and a poll, none of which writes. -/
theorem witness_SaveThenLoadReturnsIt :
    Memory.wf 0x00#8 (ready 0x00#8 .unlocked).store = true ∧ cfg.wf = true ∧
    neverWrites ⟨_, save 0xED#8 (ready 0x00#8 .unlocked), []⟩ [0x20#6, 0x04#6, 0x06#6, 0x08#6] = true ∧
    neverWrites ⟨_, save 0x00#8 (ready 0x00#8 .unlocked), []⟩ [0x20#6, 0x04#6] = false := by decide

/-- Reads and writes that do happen, one for each case. -/
theorem witness_StoreAccessesAreExactlyThese :
    runs (.poll false false) (Block.reset (Config.cfgT 0x00#8) []) (fun s =>
      s.block.out.nvRe && s.block.out.nvWrite == some 0x00#8) ∧
    runs (.poll false false)
      { Block.reset (Config.cfgT 0xED#8) [] with phase := .bypass, hist := 0x80#8, pressed := true } (fun s =>
      !s.block.out.nvRe && s.block.out.nvWrite == some 0x00#8) ∧
    runs (.poll false false) (releasing 0x00#8 .unlocked true 0x76#8 5) (fun s =>
      !s.block.out.nvRe && s.block.out.nvWrite == some 0xED#8) ∧
    runs (.poll false false) (releasing 0xED#8 .locked true 0x76#8 5) (fun s =>
      s.block.out.nvRe && s.block.out.nvWrite == some 0x00#8) := by decide

theorem witness_MemoryReadsAsLastWritten :
    Memory.wf 0x00#8 (releasing 0x00#8 .unlocked true 0x76#8 5).store = true ∧
    Memory.wf 0x00#8 [(23, 0xED#8)] = true := by decide

/-- A save of a code and a clear, from states that meet the invariants. -/
theorem witness_SavedBytesCarryTheMarker :
    Inv ⟨_, releasing 0x00#8 .unlocked true 0x76#8 5, []⟩ ∧
    Inv ⟨_, releasing 0xED#8 .locked true 0x76#8 5, []⟩ ∧
    runs (.poll false false) (releasing 0x00#8 .unlocked true 0x76#8 5) (fun s =>
      s.block.out.nvWrite == some 0xED#8) ∧
    runs (.poll false false) (releasing 0xED#8 .locked true 0x76#8 5) (fun s =>
      s.block.out.nvWrite == some 0x00#8) :=
  ⟨witness_inv_sixth_unlocked, witness_inv_sixth_locked, by decide, by decide⟩

theorem witness_PowerUpMeetsTheInvariants : { cfg with depth := 1, timeoutTicks := 255 }.wf = true := by decide

/-- `POR` over a store with a code from a broken state, and a step from a state that meets the invariants. -/
theorem witness_InvariantsHoldFromPorOn :
    (let b : Block (Config.cfgT 0x00#8) :=
      { ready 0x00#8 .unlocked with store := [(23, 0xED#8)], ticks := 200#8, gate := true }
     cfg.wf = true ∧ Memory.wf 0x00#8 b.store = true ∧ b.nv.extractLsb' 6 2 = cfg.marker) ∧
    Inv ⟨_, entering, []⟩ := ⟨by decide, witness_inv_entering⟩

theorem witness_EveryStimulusKeepsTheInvariants :
    { cfg with timerWidth := 3, timerStep := 3 }.wf = true := by decide

theorem witness_GreenIsNeverLatched : (ready 0x00#8 .unlocked).ind ≠ .green := by decide

/-- Rows of the table that change the sequencer state, and one that does not. -/
theorem witness_SequencerFollowsTheTable :
    Inv ⟨_, releasing 0xED#8 .locked true 0x76#8 5, []⟩ ∧
    sequencerTable (releasing 0xED#8 .locked true 0x76#8 5) (.poll false false) = (.run, .unlocked, .none) ∧
    sequencerTable (releasing 0xED#8 .locked false 0x76#8 5) (.poll false false)
      = (.run, .locked, .errorFeedback) ∧
    sequencerTable (lastCount 2#8) .tmr = (.run, .unlocked, .timeoutAbort) ∧
    sequencerTable (lastCount 1#8) .tmr = (.run, .unlocked, .none) :=
  ⟨witness_inv_sixth_locked, by decide, by decide, by decide, by decide⟩

/-- A press, a release and a held key. -/
theorem witness_KeyEventsAlternate :
    cfg.wf = true ∧
    runs (.poll true false) { ready 0x00#8 .unlocked with hist := 0x7F#8 } (fun s =>
      s.block.out.pressConfirmed) ∧
    runs (.poll false false) entering (fun s => s.block.out.releaseConfirmed) ∧
    (let b : Block (Config.cfgT 0x00#8) := { ready 0x00#8 .unlocked with hist := 0xFF#8, pressed := true }
     b.hist = BitVec.allOnes _ ∧ b.pressed = true ∧ pollKeys (.poll true false) = some (true, false) ∧
      (true || false) = true) := by decide

/-- Each clause, at the last index. -/
theorem witness_PseudoOperationsActAtTheirLastWord :
    cfg.wf = true ∧
    (let b := ready 0x00#8 .unlocked
     b.fb = .none ∧ b.phase ≠ .boot ∧ b.hist = 0#_ ∧ b.pressed = false ∧ 7 < cfg.depth) ∧
    (let b : Block (Config.cfgT 0x00#8) := { ready 0x00#8 .unlocked with hist := 0xFF#8, pressed := true }
     b.fb = .none ∧ b.phase ≠ .boot ∧ b.hist = BitVec.allOnes _ ∧ b.pressed = true ∧ 7 < cfg.depth) ∧
    (countsToMatch (ready 0x00#8 .unlocked) = cfg.timerStep ∧ 3 < cfg.timerStep) := by decide

theorem witness_KeyMakesOneEntry :
    let b : Block (Config.cfgT 0x00#8) :=
      { ready 0x00#8 .unlocked with acc := 0x3B#8, count := 4, gate := true }
    cfg.wf = true ∧ b.phase = .run ∧ b.fb = .none ∧ b.hist = 0#_ ∧ b.pressed = false ∧ b.count.val < 5 := by
  decide

theorem witness_SixEntriesSetTheCode :
    let b := ready 0x00#8 .unlocked
    Inv ⟨_, b, []⟩ ∧ b.phase = .run ∧ b.mode = .unlocked ∧ b.fb = .none ∧ b.hist = 0#_ ∧
    b.pressed = false ∧ b.count = 0 :=
  ⟨witness_inv_ready_unlocked, rfl, rfl, rfl, rfl, rfl, rfl⟩

/-- The stored code is matched by 1,0,1,1,0,1 and by no other digits. -/
theorem witness_SixEntriesInLockedMatchOrFail :
    let b := ready 0xED#8 .locked
    Inv ⟨_, b, []⟩ ∧ b.phase = .run ∧ b.mode = .locked ∧ b.fb = .none ∧ b.hist = 0#_ ∧
    b.pressed = false ∧ b.count = 0 ∧
    b.nv = markedCode cfg true false true true false true ∧
    b.nv ≠ markedCode cfg true false true true false false :=
  ⟨witness_inv_ready_locked, rfl, rfl, rfl, rfl, rfl, rfl, by decide, by decide⟩

/-- The fourth `TMR` after `POR`, a poll between. -/
theorem witness_TimerFiresEveryTimerStep :
    (State.powerUp cfg).cfg.wf = true ∧ (∀ x ∈ [0x08#6, 0x0C#6, 0x04#6, 0x18#6], Stim.por x = false) ∧
    Stim.por 0x08#6 = false ∧ Stim.tmrEn 0x08#6 = true ∧
    (([0x08#6, 0x0C#6, 0x04#6, 0x18#6] ++ [0x08#6]).filter Stim.tmrEn).length % cfg.timerStep = 0 := by decide

theorem witness_NoTimeoutWithoutAnEntry : cfg.wf = true ∧ (ready 0x00#8 .unlocked).gate = false := by decide

theorem witness_TimeoutOnlyDuringAnEntry :
    Inv ⟨_, lastCount 2#8, []⟩ ∧ runs .tmr (lastCount 2#8) (fun s => s.block.out.entryTimedOut) :=
  ⟨witness_inv_lastCount, by decide⟩

/-- Each clause: a release; an entry in progress without and with a timer count; the last count. -/
theorem witness_TimeoutComesAtTheEndOfTheCountdown :
    Inv ⟨_, entering, [0x04#6]⟩ ∧ Inv ⟨_, lastCount 2#8, [0x08#6]⟩ ∧
    Stim.por 0x04#6 = false ∧ Stim.por 0x08#6 = false ∧ Stim.por 0x06#6 = false ∧
    runs (.poll false false) entering (fun s => s.block.out.releaseConfirmed && s.block.gate) ∧
    runs (.poll true false) entering (fun s => !s.block.out.releaseConfirmed) ∧ entering.gate = true ∧
    Stim.tmrEn 0x06#6 = false ∧ Stim.tmrEn 0x08#6 = true ∧
    countsToTimeout (lastCount 2#8) = 1 ∧ countsToTimeout entering ≠ 1 :=
  ⟨⟨by decide, by decide, witness_inv_entering.invariants⟩,
   ⟨by decide, by decide, witness_inv_lastCount.invariants⟩,
   by decide, by decide, by decide, by decide, by decide, by decide, by decide, by decide, by decide,
   by decide⟩

theorem witness_StrobeBlocksUntilDoneOrPor :
    Inv ⟨_, strobing 0xED#8 .locked .errorFeedback, []⟩ ∧
    (strobing 0xED#8 .locked .errorFeedback).fb ≠ .none ∧
    ∀ w ∈ [0x06#6, 0x08#6, 0x0C#6, 0x00#6], Stim.por w = false ∧ Stim.indDone w = false :=
  ⟨witness_inv_strobing, by decide, by decide⟩

/-- Each way out: a matching attempt, the end of the bypass, the boot decision over an empty store. -/
theorem witness_WaysOutOfLocked :
    Inv ⟨_, releasing 0xED#8 .locked true 0x76#8 5, []⟩ ∧
    (releasing 0xED#8 .locked true 0x76#8 5).mode = .locked ∧
    runs (.poll false false) (releasing 0xED#8 .locked true 0x76#8 5) (fun s => s.block.mode == .unlocked) ∧
    runs (.poll false false)
      { Block.reset (Config.cfgT 0xED#8) [] with phase := .bypass, hist := 0x80#8, pressed := true } (fun s =>
      s.block.mode == .unlocked) ∧
    runs (.poll false false) (Block.reset (Config.cfgT 0x00#8) []) (fun s => s.block.mode == .unlocked) :=
  ⟨witness_inv_sixth_locked, rfl, by decide, by decide, by decide⟩

/-- Vector L11. -/
theorem witness_ForeignByteKeepsTheBlockLocked :
    Inv ⟨_, ready 0x05#8 .locked, []⟩ ∧ (ready 0x05#8 .locked).phase = .run ∧
    (ready 0x05#8 .locked).nv ≠ 0x00#8 ∧
    (ready 0x05#8 .locked).nv.extractLsb' 6 2 ≠ (Config.cfgT 0x05#8).marker ∧
    Instr.poll false false ≠ .por :=
  ⟨witness_inv_foreign, rfl, by decide, by decide, by decide⟩

theorem witness_OutputsDoNotTellTheKey :
    let b : Block (Config.cfgT 0x00#8) := { ready 0x00#8 .unlocked with hist := 0x7F#8 }
    (true || false) = (false || true) ∧
    ¬ (b.phase = .run ∧ b.count.val = 5 ∧ ReleaseNow b true false) := by decide

end Sys2Proof.Tests
end

section
/-! The invariants of `10_state.md` R42: reset establishes them, and every micro-operation, hence every
cycle and every step, keeps them. -/

namespace Sys2Proof.Machine

variable {c : Config} {b : Block c} {q : List Stim}

/-- The parameters and the store are all that `Inv` asks for beside R42, so the listed words do not matter. -/
theorem inv_withStim (h : Inv ⟨c, b, q⟩) (q' : List Stim) : Inv ⟨c, b, q'⟩ :=
  ⟨h.cfgWf, h.storeWf, h.invariants⟩

/-! ## Shapes of a block that meets R42 -/

/-- Beside the store and the timer, nothing is left to check of a running block whose entry is emptied, with
or without a strobe outstanding (I1 to I6). -/
theorem invariants_of_emptied (hc : c.wf = true) (run : b.phase = .run)
    (empty : b.gate = false ∧ b.ticks = 0#8 ∧ b.count = 0 ∧ b.acc = c.init)
    (i7 : b.mode = .unlocked → b.nv = 0x00#8)
    (i8 : b.nv = c.nv0 ∨ b.nv = 0x00#8 ∨ b.nv.extractLsb' 6 2 = c.marker)
    (i9 : 1 ≤ (b.tcmp - b.tcnt).toNat ∧ (b.tcmp - b.tcnt).toNat ≤ c.timerStep)
    (i10 : b.fb = .errorFeedback → b.mode = .locked) : Invariants b := by
  obtain ⟨-, -, ⟨timeout_pos, -⟩, -⟩ := wf_parts hc
  obtain ⟨gate, ticks, count, acc⟩ := empty
  exact
    { i1 := fun _ => ⟨run, gate, ticks, count, acc⟩
      i2 := fun h => absurd run h
      i3 := by simp [gate, count]
      i4 := ⟨by rw [ticks]; exact timeout_pos, fun _ => ticks⟩
      i5 := by simp [count]
      i6 := by simp [count, acc]
      i7 := fun _ => i7
      i8 := i8
      i9 := i9
      i10 := i10 }

/-- `EnterUnlocked()` has cleared the byte in the store, which is what I7 and I8 ask for. -/
theorem inv_of_unlocked {b' : Block c} (hc : c.wf = true) (hs : Memory.wf c.nv0 b.store = true)
    (run : b'.phase = .run) (noStrobe : b'.fb = .none)
    (empty : b'.gate = false ∧ b'.ticks = 0#8 ∧ b'.count = 0 ∧ b'.acc = c.init)
    (store : b'.store = Memory.write c.nv0 b.store storeAddr 0x00#8)
    (i9 : 1 ≤ (b'.tcmp - b'.tcnt).toNat ∧ (b'.tcmp - b'.tcnt).toNat ≤ c.timerStep) :
    Inv ⟨c, b', q⟩ := by
  have cleared : b'.nv = 0x00#8 := by rw [Block.nv, store]; exact nv_write hs
  have noError : b'.fb = .errorFeedback → b'.mode = .locked := by simp [noStrobe]
  have canonical : Memory.wf c.nv0 b'.store = true := by rw [store]; exact wf_write hs
  exact ⟨hc, canonical,
    invariants_of_emptied hc run empty (fun _ => cleared) (.inr (.inl cleared)) i9 noError⟩

/-- The registers after reset meet R42 over any store that meets I8. -/
theorem inv_reset {store : Memory} (hc : c.wf = true) (hs : Memory.wf c.nv0 store = true)
    (i8 : (Block.reset c store).nv = c.nv0 ∨ (Block.reset c store).nv = 0x00#8 ∨
      (Block.reset c store).nv.extractLsb' 6 2 = c.marker) :
    Inv ⟨c, Block.reset c store, q⟩ := by
  obtain ⟨-, -, ⟨timeout_pos, -⟩, step_pos, step_lt⟩ := wf_parts hc
  have distance : (BitVec.ofNat c.timerWidth c.timerStep - 0#c.timerWidth).toNat = c.timerStep := by
    simpa using Nat.mod_eq_of_lt step_lt
  exact ⟨hc, hs,
    { i1 := fun h => absurd rfl h
      i2 := fun _ => ⟨rfl, rfl, rfl, rfl, rfl, rfl, rfl⟩
      i3 := by simp [Block.reset]
      i4 := ⟨timeout_pos, fun _ => rfl⟩
      i5 := Nat.zero_le 5
      i6 := BitVec.ushiftRight_zero c.init
      i7 := nofun
      i8 := i8
      i9 := ⟨distance.symm ▸ step_pos, distance.le⟩
      i10 := nofun }⟩

/-! ## Each micro-operation -/

theorem beginCycle_keeps_inv (h : Inv ⟨c, b, q⟩) : Inv ⟨c, beginCycle b, q⟩ :=
  ⟨h.cfgWf, h.storeWf, { h.invariants with }⟩

theorem por_keeps_inv (h : Inv ⟨c, b, q⟩) : Inv ⟨c, por b, q⟩ :=
  inv_reset h.cfgWf h.storeWf h.invariants.i8

/-- Leaving a feedback sub-state only drops what I1 and I10 ask of it. -/
theorem done_keeps_inv (h : Inv ⟨c, b, q⟩) : Inv ⟨c, done b, q⟩ := by
  obtain ⟨hc, hs, hi⟩ := h
  rw [done_eq]
  exact ⟨hc, hs,
    { hi with
      i1 := fun h => absurd rfl h
      i2 := fun h => ⟨rfl, (hi.i2 h).2⟩
      i10 := nofun }⟩

/-- A count towards the compare match shortens I9's distance by one; a match puts it back to `TIMER_STEP`. -/
theorem tmr_keeps_inv (h : Inv ⟨c, b, q⟩) : Inv ⟨c, tmr b, q⟩ := by
  have hc : c.wf = true := h.cfgWf
  have hs := h.storeWf
  have hi : Invariants b := h.invariants
  obtain ⟨-, -, -, step_pos, step_lt⟩ := wf_parts hc
  have afterMatch (hm : b.tcnt + 1#c.timerWidth = b.tcmp) :
      1 ≤ ((firedTimer b).tcmp - (firedTimer b).tcnt).toNat ∧
        ((firedTimer b).tcmp - (firedTimer b).tcnt).toNat ≤ c.timerStep := by
    have distance : ((firedTimer b).tcmp - (firedTimer b).tcnt).toNat = c.timerStep :=
      distance_after_match hm step_lt
    omega
  refine tmr_elim (P := fun r => Inv ⟨c, r, q⟩) b (fun hm => ?noMatch) (fun hm hg => ?closed)
    (fun hm hg ht => ?counts) (fun hm hg ht => ?timesOut)
  case noMatch =>
    have nearer := distance_count hm hi.i9.1
    have notOne := distance_ne_one hm
    obtain ⟨-, below⟩ := hi.i9
    exact ⟨hc, hs, { hi with i9 := by dsimp only; omega }⟩
  case closed => exact ⟨hc, hs, { hi with i9 := afterMatch hm }⟩
  case counts =>
    obtain ⟨run, noStrobe⟩ := phase_of_gate hi hg
    exact ⟨hc, hs,
      { hi with
        i1 := fun h => absurd noStrobe h
        i2 := fun h => absurd run h
        i4 := ⟨ht, fun h => absurd (hg.symm.trans h) Bool.noConfusion⟩
        i9 := afterMatch hm }⟩
  case timesOut =>
    obtain ⟨run, -⟩ := phase_of_gate hi hg
    exact ⟨hc, hs, invariants_of_emptied hc run ⟨rfl, rfl, rfl, rfl⟩ (hi.i7 run) hi.i8
      (afterMatch hm) nofun⟩

/-- Six entries leave a byte that I8 admits: the marker stands above the last five digits, so it stands in
the two high-order bits once the sixth is shifted in (R172). -/
theorem accAfter_topBits (hi : Invariants b) (h : b.count.val = 5) :
    (accAfter b).extractLsb' 6 2 = c.marker := by
  have above := marker_accAfter hi.i6
  rw [h] at above
  exact marker_topBits above

/-- `POLL` starts with no strobe outstanding, or does nothing; after that I1 and I2 fix what is left to check
in each branch. -/
theorem poll_keeps_inv (k1 k2 : Bool) (h : Inv ⟨c, b, q⟩) : Inv ⟨c, poll k1 k2 b, q⟩ := by
  have hc : c.wf = true := h.cfgWf
  have hs : Memory.wf c.nv0 b.store = true := h.storeWf
  have hi : Invariants b := h.invariants
  obtain ⟨-, -, ⟨timeout_pos, -⟩, -⟩ := wf_parts hc
  refine poll_elim (P := fun r => Inv ⟨c, r, q⟩) b k1 k2
    (suspended := fun _ => h)
    (bootBypass := fun hf hp _ => ?bootBypass)
    (bootLocked := fun _ _ _ _ => ?bootLocked)
    (bootUnlocked := fun hf _ _ _ => ?bootUnlocked)
    (bypassPress := fun _ _ _ => ⟨hc, hs, { hi with }⟩)
    (bypassRelease := fun hf _ _ => ?bypassRelease)
    (bypassNone := fun _ _ _ _ => ⟨hc, hs, { hi with }⟩)
    (runPress := fun _ hp _ => ⟨hc, hs, { hi with i2 := fun h => absurd hp h }⟩)
    (runNone := fun _ hp _ _ => ⟨hc, hs, { hi with i2 := fun h => absurd hp h }⟩)
    (runEntry := fun hf hp _ hn => ?runEntry)
    (runLock := fun _ hp _ hn _ => ?runLock)
    (runMatch := fun hf hp _ _ _ _ => ?runMatch)
    (runMismatch := fun _ hp _ _ hm _ => ?runMismatch)
  case bootBypass =>
    have notRun : b.phase ≠ .run := by simp [hp]
    exact ⟨hc, hs,
      { hi with i1 := fun h => absurd hf h, i2 := fun _ => hi.i2 notRun, i7 := nofun }⟩
  case bootLocked =>
    exact ⟨hc, hs, invariants_of_emptied hc rfl ⟨rfl, rfl, rfl, rfl⟩ nofun hi.i8 hi.i9 fun _ => rfl⟩
  case bootUnlocked =>
    exact inv_of_unlocked hc hs rfl hf ⟨rfl, rfl, rfl, rfl⟩ rfl hi.i9
  case bypassRelease =>
    exact inv_of_unlocked hc hs rfl hf ⟨rfl, rfl, rfl, rfl⟩ rfl hi.i9
  case runMatch =>
    exact inv_of_unlocked hc hs hp hf ⟨rfl, rfl, rfl, rfl⟩ rfl hi.i9
  case runEntry =>
    have counted : (b.count + 1).val = b.count.val + 1 := Fin.val_add_one_of_lt hn
    exact ⟨hc, hs,
      { hi with
        i1 := fun h => absurd hf h
        i2 := fun h => absurd hp h
        i3 := iff_of_true rfl (by dsimp only; omega)
        i4 := ⟨timeout_pos, nofun⟩
        i5 := by dsimp only; omega
        i6 := by dsimp only; rw [counted]; exact marker_accAfter hi.i6 }⟩
  case runLock =>
    have saved : (Memory.byteAt c.nv0 (Memory.write c.nv0 b.store storeAddr (accAfter b))
        storeAddr).extractLsb' 6 2 = c.marker := by
      rw [nv_write hs]
      exact accAfter_topBits hi hn
    exact ⟨hc, wf_write hs, invariants_of_emptied hc hp ⟨rfl, rfl, rfl, rfl⟩ nofun
      (.inr (.inr saved)) hi.i9 fun _ => rfl⟩
  case runMismatch =>
    exact ⟨hc, hs, invariants_of_emptied hc hp ⟨rfl, rfl, rfl, rfl⟩ (hi.i7 hp) hi.i8 hi.i9 fun _ => hm⟩

/-! ## Cycles and steps -/

theorem cycleOf_keeps_inv (i : Instr) (h : Inv ⟨c, b, q⟩) : Inv ⟨c, cycleOf i b, q⟩ :=
  cycle_induction (P := fun r => Inv ⟨c, r, q⟩) i b
    (start := beginCycle_keeps_inv h)
    (reset := fun _ => por_keeps_inv (beginCycle_keeps_inv h))
    (onDone := fun _ => done_keeps_inv)
    (onTmr := fun _ => tmr_keeps_inv)
    (onPoll := fun k1 k2 _ => poll_keeps_inv k1 k2)

/-- A step answers a next state, and it meets the invariants. -/
theorem step_keeps_inv {s : State} (h : Inv s) : ∃ t : State, step s = .next t ∧ Inv t := by
  obtain ⟨c, b, q⟩ := s
  cases q with
  | nil => exact ⟨_, step_nil h.cfgWf b, cycleOf_keeps_inv .idle h⟩
  | cons w rest => exact ⟨_, step_cons h.cfgWf b w rest, cycleOf_keeps_inv (decode w) (inv_withStim h rest)⟩

/-- Settles O38: reset establishes R42 over a store that meets I8, and each micro-operation of a step keeps
it. -/
theorem invariantsHoldFromPorOn : Obligations.InvariantsHoldFromPorOn := by
  unfold Obligations.InvariantsHoldFromPorOn
  exact ⟨fun c b q hc hs i8 => ⟨_, exec_eq_next .por b q, inv_reset hc hs i8⟩, fun s => step_keeps_inv⟩

end Sys2Proof.Machine
end

section
/-! The store (`20_memory.md`): when a micro-operation reads it and writes it, and that it holds the byte last
written over every cycle that does not write. -/

namespace Sys2Proof.Machine

variable {c : Config} {b : Block c}

/-! ## When a polling tick accesses the store (R55) -/

/-- The conditions under which a `POLL` reads the store. -/
abbrev StoreReadNow (b : Block c) (k1 k2 : Bool) : Prop :=
  b.fb = .none ∧ (b.phase = .boot ∨
    (b.phase = .run ∧ b.mode = .locked ∧ ReleaseNow b k1 k2 ∧ b.count.val = 5))

/-- The conditions under which a `POLL` writes `v` to the store. -/
abbrev StoreWriteNow (b : Block c) (k1 k2 : Bool) (v : Byte) : Prop :=
  b.fb = .none ∧
    ((b.phase = .boot ∧ (k1 || k2) = false ∧ b.nv = 0x00#8 ∧ v = 0x00#8) ∨
     (b.phase = .bypass ∧ ReleaseNow b k1 k2 ∧ v = 0x00#8) ∨
     (b.phase = .run ∧ b.mode = .unlocked ∧ ReleaseNow b k1 k2 ∧ b.count.val = 5 ∧ v = accAfter b) ∨
     (b.phase = .run ∧ b.mode = .locked ∧ ReleaseNow b k1 k2 ∧ b.count.val = 5 ∧
        b.nv = accAfter b ∧ v = 0x00#8))

/-- A press and a release are not confirmed by one sample. -/
theorem not_release_of_press {k1 k2 : Bool} (h : PressNow b k1 k2) : ¬ ReleaseNow b k1 k2 :=
  fun h' => not_press_of_release h' h

/-- A `POLL` drives `nv_re` exactly at the boot decision and at a completed attempt. -/
theorem poll_reads_iff (k1 k2 : Bool) (quiet : b.out.nvRe = false) :
    (poll k1 k2 b).out.nvRe = true ↔ StoreReadNow b k1 k2 := by
  refine poll_elim (P := fun r => r.out.nvRe = true ↔ StoreReadNow b k1 k2) b k1 k2
    (suspended := fun hf => ?suspended)
    (bootBypass := fun hf hp _ => iff_of_true rfl ⟨hf, .inl hp⟩)
    (bootLocked := fun hf hp _ _ => iff_of_true rfl ⟨hf, .inl hp⟩)
    (bootUnlocked := fun hf hp _ _ => iff_of_true rfl ⟨hf, .inl hp⟩)
    (bypassPress := fun _ hp _ => ?bypassPress)
    (bypassRelease := fun _ hp _ => ?bypassRelease)
    (bypassNone := fun _ hp _ _ => ?bypassNone)
    (runPress := fun _ hp h => ?runPress)
    (runNone := fun _ hp _ h => ?runNone)
    (runEntry := fun _ hp _ hn => ?runEntry)
    (runLock := fun _ hp _ _ hm => ?runLock)
    (runMatch := fun hf hp h hn hm _ => iff_of_true rfl ⟨hf, .inr ⟨hp, hm, h, hn⟩⟩)
    (runMismatch := fun hf hp h hn hm _ => iff_of_true rfl ⟨hf, .inr ⟨hp, hm, h, hn⟩⟩)
  case suspended => simp [quiet, hf]
  case bypassPress => simp [quiet, hp]
  case bypassRelease => simp [quiet, hp]
  case bypassNone => simp [quiet, hp]
  case runPress => simp [quiet, hp, not_release_of_press h]
  case runNone => simp [quiet, hp, h]
  case runEntry => simp [quiet, hp, hn.ne]
  case runLock => simp [quiet, hp, hm]

/-- A `POLL` drives `nv_we` with `v` exactly on entering Unlocked and at a code completed in Unlocked. -/
theorem poll_writes_iff (k1 k2 : Bool) (v : Byte) (quiet : b.out.nvWrite = none) :
    (poll k1 k2 b).out.nvWrite = some v ↔ StoreWriteNow b k1 k2 v := by
  have writes_iff {x : Byte} (h : v = x ↔ StoreWriteNow b k1 k2 v) :
      some x = some v ↔ StoreWriteNow b k1 k2 v := (Option.some_inj.trans eq_comm).trans h
  refine poll_elim (P := fun r => r.out.nvWrite = some v ↔ StoreWriteNow b k1 k2 v) b k1 k2
    (suspended := fun hf => ?suspended)
    (bootBypass := fun _ hp hk => ?bootBypass)
    (bootLocked := fun _ hp _ hv => ?bootLocked)
    (bootUnlocked := fun hf hp hk hv => ?bootUnlocked)
    (bypassPress := fun _ hp h => ?bypassPress)
    (bypassRelease := fun hf hp ⟨released, held⟩ => ?bypassRelease)
    (bypassNone := fun _ hp _ h => ?bypassNone)
    (runPress := fun _ hp h => ?runPress)
    (runNone := fun _ hp _ h => ?runNone)
    (runEntry := fun _ hp _ hn => ?runEntry)
    (runLock := fun hf hp ⟨released, held⟩ hn hm => ?runLock)
    (runMatch := fun hf hp ⟨released, held⟩ hn hm hv => ?runMatch)
    (runMismatch := fun _ hp _ _ hm hv => ?runMismatch)
  case suspended => simp [quiet, hf]
  case bootBypass => simp [quiet, hp, hk]
  case bootLocked => simp [quiet, hp, hv]
  case bootUnlocked => exact writes_iff (by simp [StoreWriteNow, hf, hp, hk, hv])
  case bypassPress => simp [quiet, hp, not_release_of_press h]
  case bypassRelease => exact writes_iff (by simp [StoreWriteNow, ReleaseNow, hf, hp, released, held])
  case bypassNone => simp [quiet, hp, h]
  case runPress => simp [quiet, hp, not_release_of_press h]
  case runNone => simp [quiet, hp, h]
  case runEntry => simp [quiet, hp, hn.ne]
  case runLock => exact writes_iff (by simp [StoreWriteNow, ReleaseNow, hf, hp, released, held, hn, hm])
  case runMatch => exact writes_iff (by simp [StoreWriteNow, ReleaseNow, hf, hp, released, held, hn, hm, hv])
  case runMismatch => simp [quiet, hp, hm, hv]

/-! ## Cycles that leave the store alone -/

/-- `TMR` adds no access to the store to the cycle's. -/
theorem tmr_noAccess (b : Block c) :
    (tmr b).store = b.store ∧ (tmr b).out.nvRe = b.out.nvRe ∧
      (tmr b).out.nvWrite = b.out.nvWrite := by
  obtain ⟨-, -, -, -, -, store, -, -, written, read⟩ := tmr_frame b
  exact ⟨store, read, written⟩

/-- Without `POLL` a cycle neither reads nor writes the store. -/
theorem cycleOf_noAccess {i : Instr} (noPoll : pollKeys i = none) (b : Block c) :
    (cycleOf i b).store = b.store ∧ (cycleOf i b).out.nvRe = false ∧
      (cycleOf i b).out.nvWrite = none := by
  cases i with
  | por => exact ⟨rfl, rfl, rfl⟩
  | idle => exact ⟨rfl, rfl, rfl⟩
  | tmr => exact tmr_noAccess (beginCycle b)
  | done => rw [cycleOf, done_eq]; exact ⟨rfl, rfl, rfl⟩
  | doneTmr => rw [cycleOf, done_eq]; exact tmr_noAccess { beginCycle b with fb := .none }
  | poll k1 k2 => simp [pollKeys] at noPoll
  | tmrPoll k1 k2 => simp [pollKeys] at noPoll
  | donePoll k1 k2 => simp [pollKeys] at noPoll
  | doneTmrPoll k1 k2 => simp [pollKeys] at noPoll

/-- A cycle with no write on its outputs after the `POLL` had none before it either, and the `POLL` kept the
store. -/
theorem poll_store_of_noWrite (k1 k2 : Bool) (b : Block c) :
    (poll k1 k2 b).out.nvWrite = none → (poll k1 k2 b).store = b.store ∧ b.out.nvWrite = none :=
  poll_elim (P := fun r => r.out.nvWrite = none → r.store = b.store ∧ b.out.nvWrite = none) b k1 k2
    (suspended := fun _ h => ⟨rfl, h⟩)
    (bootBypass := fun _ _ _ h => ⟨rfl, h⟩)
    (bootLocked := fun _ _ _ _ h => ⟨rfl, h⟩)
    (bootUnlocked := fun _ _ _ _ => nofun)
    (bypassPress := fun _ _ _ h => ⟨rfl, h⟩)
    (bypassRelease := fun _ _ _ => nofun)
    (bypassNone := fun _ _ _ _ h => ⟨rfl, h⟩)
    (runPress := fun _ _ _ h => ⟨rfl, h⟩)
    (runNone := fun _ _ _ _ h => ⟨rfl, h⟩)
    (runEntry := fun _ _ _ _ h => ⟨rfl, h⟩)
    (runLock := fun _ _ _ _ _ => nofun)
    (runMatch := fun _ _ _ _ _ _ => nofun)
    (runMismatch := fun _ _ _ _ _ _ h => ⟨rfl, h⟩)

/-- A cycle that drives no write keeps the store. -/
theorem cycleOf_store_of_noWrite (i : Instr) (b : Block c) :
    (cycleOf i b).out.nvWrite = none → (cycleOf i b).store = b.store :=
  cycle_induction (P := fun r => r.out.nvWrite = none → r.store = b.store) i b
    (start := fun _ => rfl)
    (reset := fun _ _ => rfl)
    (onDone := fun r ih => by rw [done_eq]; exact ih)
    (onTmr := fun r ih => by
      obtain ⟨store, -, written⟩ := tmr_noAccess r
      rw [store, written]
      exact ih)
    (onPoll := fun k1 k2 r ih noWrite => by
      obtain ⟨store, before⟩ := poll_store_of_noWrite k1 k2 r noWrite
      exact store.trans (ih before))

/-- A sequence of cycles none of which writes keeps the store. -/
theorem cyclesOf_store_of_neverWrites (hc : c.wf = true) (ws q : List Stim) (b : Block c)
    (never : neverWrites ⟨c, b, q⟩ ws = true) : (cyclesOf ws b).store = b.store := by
  induction ws generalizing b q with
  | nil => rfl
  | cons w ws ih =>
    rw [neverWrites_cons hc, Bool.and_eq_true, beq_iff_eq] at never
    obtain ⟨first, rest⟩ := never
    calc (cyclesOf ws (cycleOf (decode w) b)).store
        = (cycleOf (decode w) b).store := ih [] _ rest
      _ = b.store := cycleOf_store_of_noWrite (decode w) b first

/-- `nv` is what the store holds. -/
theorem nv_congr {b b' : Block c} (h : b'.store = b.store) : b'.nv = b.nv := by
  rw [Block.nv, Block.nv, h]

/-! ## The obligations -/

/-- Settles O33: a write is read back, and by induction on the words no cycle without a write changes the
store. -/
theorem saveThenLoadReturnsIt : Obligations.SaveThenLoadReturnsIt := by
  unfold Obligations.SaveThenLoadReturnsIt
  intro c b v canonical
  have saved : (save v b).nv = v := nv_save canonical
  have cleared : (clear b).nv = 0x00#8 := nv_save canonical
  refine ⟨saved, saved, cleared, fun hc q ws never => ?_, rfl, rfl, rfl⟩
  have kept : (cyclesOf ws (save v b)).nv = (save v b).nv :=
    nv_congr (cyclesOf_store_of_neverWrites hc ws q (save v b) never)
  exact ⟨_, afterWords_eq_next hc (save v b) q ws, kept.trans saved⟩

/-- Settles O34: only `POLL` accesses the store, and each of its branches is one of the cases of R55 or
accesses nothing. -/
theorem storeAccessesAreExactlyThese : Obligations.StoreAccessesAreExactlyThese := by
  unfold Obligations.StoreAccessesAreExactlyThese
  intro c b q
  constructor
  · intro i hi
    have noPoll : pollKeys i = none := by
      have all : ∀ i ∈ [Instr.por, .idle, .tmr, .done, .doneTmr], pollKeys i = none := by decide
      exact all i hi
    exact ⟨_, exec_eq_next i b q, cycleOf_noAccess noPoll b⟩
  · intro k1 k2
    exact ⟨_, exec_eq_next (.poll k1 k2) b q, poll_reads_iff (b := beginCycle b) k1 k2 rfl,
      fun v => poll_writes_iff (b := beginCycle b) k1 k2 v rfl⟩

end Sys2Proof.Machine
end

section
/-! The stimulus word (`30_encoding.md`): the bits the decoder does not read (R71), and a cycle as the
micro-operations its word enables (R73, R75), or as none at all (R74). -/

namespace Sys2Proof.Machine

variable {c : Config}

/-! ## What decoding reads (R71) -/

theorem decode_of_por {w : Stim} (h : Stim.por w = true) : decode w = .por := if_pos h

/-- The mask of the words without key operands keeps bits 5 to 2. -/
theorem getLsbD_of_mask {v w : Stim} (h : v &&& 0x3C#6 = w &&& 0x3C#6) {i : Nat}
    (kept : (0x3C#6).getLsbD i = true) : v.getLsbD i = w.getLsbD i := by
  have masked : (v &&& 0x3C#6).getLsbD i = (w &&& 0x3C#6).getLsbD i := by rw [h]
  simpa only [BitVec.getLsbD_and, kept, Bool.and_true] using masked

/-- Without `POLL` the key lines are unread. -/
theorem decode_of_mask {v w : Stim} (noPoll : Stim.pollEn w = false)
    (h : v &&& 0x3C#6 = w &&& 0x3C#6) : decode v = decode w := by
  have hpor : Stim.por v = Stim.por w := getLsbD_of_mask h (by decide)
  have hdone : Stim.indDone v = Stim.indDone w := getLsbD_of_mask h (by decide)
  have htmr : Stim.tmrEn v = Stim.tmrEn w := getLsbD_of_mask h (by decide)
  have hpoll : Stim.pollEn v = Stim.pollEn w := getLsbD_of_mask h (by decide)
  simp only [decode, hpor, hdone, htmr, hpoll, noPoll]
  cases Stim.indDone w <;> cases Stim.tmrEn w <;> rfl

theorem canonicalWord_of_por {w : Stim} (h : Stim.por w = true) : canonicalWord w = 0x20#6 := if_pos h

theorem canonicalWord_of_poll {w : Stim} (h : Stim.por w = false) (hp : Stim.pollEn w = true) :
    canonicalWord w = w := by
  simp [canonicalWord, h, hp]

theorem canonicalWord_of_noPoll {w : Stim} (h : Stim.por w = false) (hp : Stim.pollEn w = false) :
    canonicalWord w = w &&& 0x3C#6 := by
  simp [canonicalWord, h, hp]

/-- Setting the unread bits to 0 does not change the operation. -/
theorem decode_canonicalWord (w : Stim) : decode (canonicalWord w) = decode w := by
  cases h : Stim.por w with
  | true => rw [canonicalWord_of_por h, decode_of_por h]; decide
  | false =>
    cases hp : Stim.pollEn w with
    | true => rw [canonicalWord_of_poll h hp]
    | false =>
      rw [canonicalWord_of_noPoll h hp]
      exact decode_of_mask hp (by rw [BitVec.and_assoc, BitVec.and_self])

/-- A word that polls has no unread bit. -/
theorem canonicalWord_stimWord_poll (d t k1 k2 : Bool) :
    canonicalWord (stimWord false d t true k1 k2) = stimWord false d t true k1 k2 := by
  have fields : ∀ d t k1 k2 : Bool, Stim.por (stimWord false d t true k1 k2) = false ∧
      Stim.pollEn (stimWord false d t true k1 k2) = true := by decide
  obtain ⟨hpor, hpoll⟩ := fields d t k1 k2
  exact canonicalWord_of_poll hpor hpoll

/-- The encoder sets no unread bit. -/
theorem canonicalWord_encode (i : Instr) : canonicalWord (encode i) = encode i := by
  cases i with
  | por => decide
  | idle => decide
  | tmr => decide
  | done => decide
  | doneTmr => decide
  | poll k1 k2 => exact canonicalWord_stimWord_poll false false k1 k2
  | tmrPoll k1 k2 => exact canonicalWord_stimWord_poll false true k1 k2
  | donePoll k1 k2 => exact canonicalWord_stimWord_poll true false k1 k2
  | doneTmrPoll k1 k2 => exact canonicalWord_stimWord_poll true true k1 k2

/-! ## A micro-operation is a cycle whose outputs are added to those already there (R73) -/

/-- The block `second` with the outputs of `first` before its own. -/
def unite (first second : Block c) : Block c := { second with out := first.out.union second.out }

/-- The micro-operation `f` does what a cycle of `i` does, and adds that cycle's outputs. -/
def AddsCycle (f : Block c → Block c) (i : Instr) : Prop := ∀ b, f b = unite b (cycleOf i b)

theorem addsCycle_id : AddsCycle (c := c) id .idle := fun b => by
  simp [unite, cycleOf, beginCycle]

theorem addsCycle_done : AddsCycle (c := c) done .done := done_out

theorem addsCycle_tmr : AddsCycle (c := c) tmr .tmr := tmr_out

theorem addsCycle_poll (k1 k2 : Bool) : AddsCycle (c := c) (poll k1 k2) (.poll k1 k2) := poll_out k1 k2

/-- A micro-operation that is not enabled is a cycle of `IDLE`. -/
theorem AddsCycle.enabled {f : Block c → Block c} {i : Instr} (h : AddsCycle f i) (e : Bool) :
    AddsCycle (if e then f else id) (if e then i else .idle) := by
  cases e with
  | true => exact h
  | false => exact addsCycle_id

/-- A cycle starts without outputs, so its first micro-operation is a cycle. -/
theorem AddsCycle.first {f : Block c → Block c} {i : Instr} (hf : AddsCycle f i) (b : Block c) :
    f (beginCycle b) = cycleOf i b :=
  calc f (beginCycle b)
      = unite (beginCycle b) (cycleOf i (registers b)) := hf (beginCycle b)
    _ = unite (beginCycle b) (cycleOf i b) := by rw [cycleOf_registers]
    _ = cycleOf i b := by simp [unite]

/-- The second micro-operation of a cycle is a cycle from the state the first left. -/
theorem AddsCycle.second {f g : Block c → Block c} {i j : Instr} (hf : AddsCycle f i)
    (hg : AddsCycle g j) (b : Block c) :
    g (f (beginCycle b)) = unite (cycleOf i b) (cycleOf j (cycleOf i b)) := by
  rw [hf.first b, hg]

/-- The outputs added so far do not matter to a cycle. -/
theorem cycleOf_unite (i : Instr) (first second : Block c) :
    cycleOf i (unite first second) = cycleOf i second :=
  calc cycleOf i (unite first second)
      = cycleOf i (registers (unite first second)) := (cycleOf_registers i _).symm
    _ = cycleOf i (registers second) := rfl
    _ = cycleOf i second := cycleOf_registers i second

/-- The third micro-operation of a cycle is a cycle from the state the second left. -/
theorem AddsCycle.third {f g h : Block c → Block c} {i j k : Instr} (hf : AddsCycle f i)
    (hg : AddsCycle g j) (hh : AddsCycle h k) (b : Block c) :
    h (g (f (beginCycle b))) =
      unite (unite (cycleOf i b) (cycleOf j (cycleOf i b))) (cycleOf k (cycleOf j (cycleOf i b))) := by
  rw [hf.second hg b, hh, cycleOf_unite]

/-- Without `POR` a cycle is its enabled micro-operations in the order `DONE`, `TMR`, `POLL`. -/
theorem cycleOf_decode {w : Stim} (h : Stim.por w = false) (b : Block c) :
    cycleOf (decode w) b =
      (if Stim.pollEn w then poll (Stim.k1 w) (Stim.k2 w) else id)
        ((if Stim.tmrEn w then tmr else id) ((if Stim.indDone w then done else id) (beginCycle b))) := by
  simp only [decode, h]
  cases Stim.indDone w <;> cases Stim.tmrEn w <;> cases Stim.pollEn w <;> rfl

/-! ## `IDLE` words in a sequence (R74) -/

theorem withoutIdle_idle {w : Stim} (h : decode w = .idle) (ws : List Stim) :
    withoutIdle (w :: ws) = withoutIdle ws := by
  simp [withoutIdle, h]

theorem withoutIdle_other {w : Stim} (h : decode w ≠ .idle) (ws : List Stim) :
    withoutIdle (w :: ws) = w :: withoutIdle ws := by
  simp [withoutIdle, h]

/-- Dropping the `IDLE` words of a sequence changes no register and no store byte. -/
theorem registers_cyclesOf_withoutIdle (ws : List Stim) (b : Block c) :
    registers (cyclesOf ws b) = registers (cyclesOf (withoutIdle ws) b) := by
  induction ws generalizing b with
  | nil => rfl
  | cons w ws ih =>
    by_cases h : decode w = .idle
    · have idle : registers (cycleOf .idle b) = registers b := beginCycle_beginCycle b
      calc registers (cyclesOf ws (cycleOf (decode w) b))
          = registers (cyclesOf ws b) := by rw [h]; exact registers_cyclesOf ws idle
        _ = registers (cyclesOf (withoutIdle ws) b) := ih b
        _ = registers (cyclesOf (withoutIdle (w :: ws)) b) := by rw [withoutIdle_idle h]
    · rw [withoutIdle_other h]
      exact ih (cycleOf (decode w) b)

/-! ## The obligations -/

/-- Settles O9: each enabled micro-operation adds the cycle of its own word, each other one a cycle of
`IDLE`. -/
theorem cycleAppliesEnabledMicroOps : Obligations.CycleAppliesEnabledMicroOps := by
  unfold Obligations.CycleAppliesEnabledMicroOps
  intro c b q w
  constructor
  · intro h
    rw [decode_of_por h]
  · intro h
    have united := (addsCycle_done.enabled (Stim.indDone w)).third (addsCycle_tmr.enabled (Stim.tmrEn w))
      ((addsCycle_poll (Stim.k1 w) (Stim.k2 w)).enabled (Stim.pollEn w)) b
    exact ⟨_, _, _, exec_eq_next _ b q, exec_eq_next _ _ q, exec_eq_next _ _ q,
      exec_eq_of ((cycleOf_decode h b).trans united)⟩

/-- Settles O10: a composite's meaning names its micro-operations, and each adds a cycle of its own. -/
theorem compositeIsConsecutiveCycles : Obligations.CompositeIsConsecutiveCycles := by
  unfold Obligations.CompositeIsConsecutiveCycles
  intro c b q k1 k2
  refine ⟨⟨_, _, exec_eq_next _ b q, exec_eq_next _ _ q, exec_eq_of ?tmrPoll⟩,
    ⟨_, _, exec_eq_next _ b q, exec_eq_next _ _ q, exec_eq_of ?donePoll⟩,
    ⟨_, _, exec_eq_next _ b q, exec_eq_next _ _ q, exec_eq_of ?doneTmr⟩,
    ⟨_, _, _, exec_eq_next _ b q, exec_eq_next _ _ q, exec_eq_next _ _ q, exec_eq_of ?doneTmrPoll⟩⟩
  case tmrPoll => exact addsCycle_tmr.second (addsCycle_poll k1 k2) b
  case donePoll => exact addsCycle_done.second (addsCycle_poll k1 k2) b
  case doneTmr => exact addsCycle_done.second addsCycle_tmr b
  case doneTmrPoll => exact addsCycle_done.third addsCycle_tmr (addsCycle_poll k1 k2) b

/-- Settles O18: an `IDLE` cycle only ends the outputs, on which no later cycle depends. -/
theorem idleChangesNothingAndMayBeDropped : Obligations.IdleChangesNothingAndMayBeDropped := by
  unfold Obligations.IdleChangesNothingAndMayBeDropped
  constructor
  · exact fun c b q => exec_eq_next .idle b q
  · rintro ⟨c, b, q⟩ ws hc
    exact ⟨_, _, afterWords_eq_next hc b q ws, afterWords_eq_next hc b q (withoutIdle ws),
      registers_cyclesOf_withoutIdle ws b⟩

/-- Settles O4: `POR` reads one bit, a word without `POLL` only bits 5 to 2, and the canonical word clears
just the bits left over. -/
theorem unreadBitsAreIgnored : Obligations.UnreadBitsAreIgnored := by
  unfold Obligations.UnreadBitsAreIgnored
  exact ⟨fun _ _ hv hw => (decode_of_por hv).trans (decode_of_por hw).symm,
    fun _ _ _ noPoll same => decode_of_mask noPoll same, decode_canonicalWord, canonicalWord_encode⟩

/-- Settles O7: a step is the cycle of the operation its word decodes to, and every cycle completes. -/
theorem everyWordRuns : Obligations.EveryWordRuns := by
  unfold Obligations.EveryWordRuns
  exact fun c b w rest hc => ⟨cycleOf (decode w) b, step_cons hc b w rest⟩

end Sys2Proof.Machine
end

section
/-! The debouncer (`40_debouncer.md`): the key events of one cycle and the value of `pressed` about them
(R105). -/

namespace Sys2Proof.Machine

variable {c : Config} {b r : Block c}

/-! ## A held key is not released -/

/-- The newest sample stands in bit 0 of the history (R101). -/
theorem histAfter_getLsbD_zero (depth_pos : 0 < c.depth) (b : Block c) (k1 k2 : Bool) :
    (histAfter b k1 k2).getLsbD 0 = (k1 || k2) := by
  simp [histAfter, depth_pos]

/-- A release is confirmed only by a sample that finds both keys up. -/
theorem keysUp_of_release {k1 k2 : Bool} (depth_pos : 0 < c.depth) (h : ReleaseNow b k1 k2) :
    (k1 || k2) = false := by
  obtain ⟨allUp, -⟩ := h
  rw [← histAfter_getLsbD_zero depth_pos b k1 k2, allUp, BitVec.getLsbD_zero]

/-! ## The key events of a cycle -/

/-- Since a cycle began at `b`, no key event was raised up to `r`, and `pressed` was kept. -/
structure NoKeyEvent (b r : Block c) : Prop where
  kept : r.pressed = b.pressed
  noPress : r.out.pressConfirmed = false
  noRelease : r.out.releaseConfirmed = false

/-- The three ways a cycle of `i` can take the confirmed key from `b` to `r` (R103, R104). -/
inductive KeyOutcome (i : Instr) (b r : Block c) : Prop where
  | press (raised : r.out.pressConfirmed = true) (noRelease : r.out.releaseConfirmed = false)
      (before : b.pressed = false) (after : r.pressed = true)
  | release (raised : r.out.releaseConfirmed = true) (noPress : r.out.pressConfirmed = false)
      (before : b.pressed = true) (after : r.pressed = false)
      (keysUp : ∃ k1 k2, pollKeys i = some (k1, k2) ∧ (k1 || k2) = false)
  | none (quiet : NoKeyEvent b r)

theorem beginCycle_noKeyEvent (b : Block c) : NoKeyEvent b (beginCycle b) := ⟨rfl, rfl, rfl⟩

theorem done_noKeyEvent (h : NoKeyEvent b r) : NoKeyEvent b (done r) := by
  rw [done_eq]
  exact { h with }

theorem tmr_noKeyEvent (h : NoKeyEvent b r) : NoKeyEvent b (tmr r) := by
  obtain ⟨-, pressed, -, -, -, -, press, release, -, -⟩ := tmr_frame r
  exact ⟨pressed.trans h.kept, press.trans h.noPress, release.trans h.noRelease⟩

/-- A `POLL` confirms a press where none stands, a release where a press stands, or nothing, whatever else
its branch does. -/
theorem poll_keyOutcome {i : Instr} {k1 k2 : Bool} (reads : pollKeys i = some (k1, k2))
    (hc : c.wf = true) (h : NoKeyEvent b r) : KeyOutcome i b (poll k1 k2 r) := by
  obtain ⟨depth_pos, -⟩ := wf_parts hc
  obtain ⟨kept, noPress, noRelease⟩ := h
  have before {p : Bool} (hp : r.pressed = p) : b.pressed = p := kept.symm.trans hp
  have keysUp (hr : ReleaseNow r k1 k2) : ∃ k1 k2, pollKeys i = some (k1, k2) ∧ (k1 || k2) = false :=
    ⟨k1, k2, reads, keysUp_of_release depth_pos hr⟩
  exact poll_elim (P := KeyOutcome i b) r k1 k2
    (suspended := fun _ => .none ⟨kept, noPress, noRelease⟩)
    (bootBypass := fun _ _ _ => .none ⟨kept, noPress, noRelease⟩)
    (bootLocked := fun _ _ _ _ => .none ⟨kept, noPress, noRelease⟩)
    (bootUnlocked := fun _ _ _ _ => .none ⟨kept, noPress, noRelease⟩)
    (bypassPress := fun _ _ hp => .press rfl noRelease (before hp.2) rfl)
    (bypassRelease := fun _ _ hr => .release rfl noPress (before hr.2) rfl (keysUp hr))
    (bypassNone := fun _ _ _ _ => .none ⟨kept, noPress, noRelease⟩)
    (runPress := fun _ _ hp => .press rfl noRelease (before hp.2) rfl)
    (runNone := fun _ _ _ _ => .none ⟨kept, noPress, noRelease⟩)
    (runEntry := fun _ _ hr _ => .release rfl noPress (before hr.2) rfl (keysUp hr))
    (runLock := fun _ _ hr _ _ => .release rfl noPress (before hr.2) rfl (keysUp hr))
    (runMatch := fun _ _ hr _ _ _ => .release rfl noPress (before hr.2) rfl (keysUp hr))
    (runMismatch := fun _ _ hr _ _ _ => .release rfl noPress (before hr.2) rfl (keysUp hr))

/-- Only the `POLL` of a cycle raises key events, and it comes last. -/
theorem cycleOf_keyOutcome {i : Instr} (notPor : i ≠ .por) (hc : c.wf = true) (b : Block c) :
    KeyOutcome i b (cycleOf i b) := by
  have start : NoKeyEvent b (beginCycle b) := beginCycle_noKeyEvent b
  cases i with
  | por => exact absurd rfl notPor
  | idle => exact .none start
  | poll k1 k2 => exact poll_keyOutcome rfl hc start
  | tmr => exact .none (tmr_noKeyEvent start)
  | tmrPoll k1 k2 => exact poll_keyOutcome rfl hc (tmr_noKeyEvent start)
  | done => exact .none (done_noKeyEvent start)
  | donePoll k1 k2 => exact poll_keyOutcome rfl hc (done_noKeyEvent start)
  | doneTmr => exact .none (tmr_noKeyEvent (done_noKeyEvent start))
  | doneTmrPoll k1 k2 => exact poll_keyOutcome rfl hc (tmr_noKeyEvent (done_noKeyEvent start))

/-- A key kept held after its press raises nothing more: a press needs `pressed == 0`, and a release a sample
with both keys up. -/
theorem KeyOutcome.noEvent_of_held {i : Instr} (h : KeyOutcome i b r) (pressed : b.pressed = true)
    (held : ∀ k1 k2, pollKeys i = some (k1, k2) → (k1 || k2) = true) :
    r.out.pressConfirmed = false ∧ r.out.releaseConfirmed = false := by
  cases h with
  | press _ _ before _ => simp [pressed] at before
  | release _ _ _ _ keysUp =>
    obtain ⟨k1, k2, reads, up⟩ := keysUp
    exact absurd ((held k1 k2 reads).symm.trans up) Bool.noConfusion
  | none quiet => exact ⟨quiet.noPress, quiet.noRelease⟩

/-- The two events exclude each other, each toggles `pressed` from the value it needs, and without one
`pressed` stays. -/
theorem KeyOutcome.alternates {i : Instr} (h : KeyOutcome i b r) :
    ¬ (r.out.pressConfirmed = true ∧ r.out.releaseConfirmed = true) ∧
      (r.out.pressConfirmed = true → b.pressed = false ∧ r.pressed = true) ∧
      (r.out.releaseConfirmed = true → b.pressed = true ∧ r.pressed = false) ∧
      (r.out.pressConfirmed = false → r.out.releaseConfirmed = false → r.pressed = b.pressed) := by
  cases h with
  | press raised noRelease before after => simp [raised, noRelease, before, after]
  | release raised noPress before after _ => simp [raised, noPress, before, after]
  | none quiet => simp [quiet.noPress, quiet.noRelease, quiet.kept]

/-- `POR` resets `pressed` and raises no event (R230). -/
theorem cycleOf_por_key (b : Block c) :
    (cycleOf .por b).pressed = false ∧ (cycleOf .por b).out.pressConfirmed = false ∧
      (cycleOf .por b).out.releaseConfirmed = false := ⟨rfl, rfl, rfl⟩

/-! ## The obligation -/

/-- Settles O42: `POR` resets `pressed` without an event, and every other cycle has one of the three
outcomes. -/
theorem keyEventsAlternate : Obligations.KeyEventsAlternate := by
  unfold Obligations.KeyEventsAlternate
  intro c b q i hc
  refine ⟨_, exec_eq_next i b q, ?_⟩
  by_cases hi : i = .por
  · subst hi
    obtain ⟨pressed, noPress, noRelease⟩ := cycleOf_por_key b
    simp [pressed, noPress, noRelease]
  · have outcome : KeyOutcome i b (cycleOf i b) := cycleOf_keyOutcome hi hc b
    obtain ⟨exclusive, press, release, kept⟩ := outcome.alternates
    exact ⟨exclusive, press, release, fun noPress noRelease _ => kept noPress noRelease,
      fun por => absurd por hi, fun _ => outcome.noEvent_of_held⟩

end Sys2Proof.Machine
end

section
/-! The watchdog (`41_watchdog.md`): `TMR` and its tick in one update each, the timer's distance to its next
compare match over any cycles (R123), and a block without an entry in progress (R128). -/

namespace Sys2Proof.Machine

variable {c : Config} {b : Block c}

/-! ## The timer in one micro-operation -/

/-- The body of the interrupt leaves the timer and the interrupt output as the match set them. -/
theorem wdTick_timer (b : Block c) :
    (wdTick b).tcnt = b.tcnt ∧ (wdTick b).tcmp = b.tcmp ∧ (wdTick b).out.wdIrq = b.out.wdIrq := by
  cases hg : b.gate with
  | false => rw [wdTick_closed hg]; exact ⟨rfl, rfl, rfl⟩
  | true =>
    rcases Nat.lt_or_ge (b.ticks + 1#8).toNat c.timeoutTicks with ht | ht
    · rw [wdTick_counts hg ht]; exact ⟨rfl, rfl, rfl⟩
    · rw [wdTick_timesOut hg ht]; exact ⟨rfl, rfl, rfl⟩

/-- The distance to the match is a matter of the two timer registers. -/
theorem countsToMatch_congr {b b' : Block c} (tcnt : b'.tcnt = b.tcnt) (tcmp : b'.tcmp = b.tcmp) :
    countsToMatch b' = countsToMatch b := by
  rw [countsToMatch, countsToMatch, tcnt, tcmp]

/-- The coming `TMR` is a compare match exactly at distance 1. -/
theorem matchNow_iff_countsToMatch (hc : c.wf = true) (b : Block c) :
    MatchNow b ↔ countsToMatch b = 1 :=
  ⟨fun h => distance_eq_one h (timerWidth_pos hc),
    fun h => by_contra fun noMatch => distance_ne_one noMatch h⟩

theorem countsToMatch_tmr_of_match (hc : c.wf = true) (h : MatchNow b) :
    countsToMatch (tmr b) = c.timerStep := by
  obtain ⟨-, -, -, -, step_lt⟩ := wf_parts hc
  obtain ⟨tcnt, tcmp, -⟩ := wdTick_timer (firedTimer b)
  rw [tmr_match h, countsToMatch_congr tcnt tcmp]
  exact distance_after_match h step_lt

theorem countsToMatch_tmr_of_noMatch (h : ¬ MatchNow b) (pos : 1 ≤ countsToMatch b) :
    countsToMatch (tmr b) + 1 = countsToMatch b := by
  rw [tmr_noMatch h]
  exact distance_count h pos

theorem countsToMatch_done (b : Block c) : countsToMatch (done b) = countsToMatch b := by
  rw [done_eq]
  rfl

theorem countsToMatch_poll (k1 k2 : Bool) (b : Block c) :
    countsToMatch (poll k1 k2 b) = countsToMatch b := by
  obtain ⟨tcnt, tcmp, -, -⟩ := poll_frame k1 k2 b
  exact countsToMatch_congr tcnt tcmp

/-- `TMR` signals the interrupt at a compare match, and only then (R122). -/
theorem tmr_wdIrq (b : Block c) : (tmr b).out.wdIrq = (decide (MatchNow b) || b.out.wdIrq) := by
  by_cases h : MatchNow b
  · obtain ⟨-, -, irq⟩ := wdTick_timer (firedTimer b)
    rw [tmr_match h, irq, decide_eq_true h]
    rfl
  · rw [tmr_noMatch h, decide_eq_false h]
    rfl

/-! ## The timer in one cycle -/

/-- The interrupt of a cycle is that of its `TMR`: `DONE` before it and `POLL` after it leave the timer
alone. -/
theorem cycleOf_wdIrq {w : Stim} (h : Stim.por w = false) (b : Block c) :
    (cycleOf (decode w) b).out.wdIrq = (Stim.tmrEn w && decide (MatchNow b)) := by
  have onDone (e : Bool) : ∃ r : Block c, (if e then done else id) (beginCycle b) = r ∧
      r.out.wdIrq = false ∧ (MatchNow r ↔ MatchNow b) := by
    cases e with
    | false => exact ⟨_, rfl, rfl, Iff.rfl⟩
    | true => exact ⟨_, done_eq, rfl, Iff.rfl⟩
  have onPoll (e k1 k2 : Bool) (r : Block c) :
      ((if e then poll k1 k2 else id) r).out.wdIrq = r.out.wdIrq := by
    obtain ⟨-, -, irq, -⟩ := poll_frame k1 k2 r
    cases e with
    | false => rfl
    | true => exact irq
  obtain ⟨r, start, noIrq, sameMatch⟩ := onDone (Stim.indDone w)
  rw [cycleOf_decode h, onPoll, start]
  cases Stim.tmrEn w with
  | false => exact noIrq
  | true => simp [tmr_wdIrq, noIrq, sameMatch]

/-! ## The timer since `POR` (R123) -/

/-- The timer after `n` of the `TMR` since `POR`: the coming match is the `TMR` whose number is the next
multiple of `TIMER_STEP` (R42 I9 with the number of that `TMR`). -/
structure TimerAfter (n : Nat) (b : Block c) : Prop where
  pos : 1 ≤ countsToMatch b
  le : countsToMatch b ≤ c.timerStep
  aligned : c.timerStep ∣ n + countsToMatch b

theorem timerAfter_por (hc : c.wf = true) (b : Block c) : TimerAfter 0 (por b) := by
  obtain ⟨-, -, -, step_pos, step_lt⟩ := wf_parts hc
  have distance : countsToMatch (por b) = c.timerStep := by
    simpa [countsToMatch, por, Block.reset] using Nat.mod_eq_of_lt step_lt
  exact ⟨by omega, by omega, by simp [distance]⟩

theorem TimerAfter.congr {n : Nat} {b' : Block c} (ih : TimerAfter n b)
    (same : countsToMatch b' = countsToMatch b) : TimerAfter n b' :=
  ⟨same ▸ ih.pos, same ▸ ih.le, same ▸ ih.aligned⟩

/-- The coming `TMR` matches exactly if its number is a multiple of `TIMER_STEP`. -/
theorem TimerAfter.matchNow_iff {n : Nat} (hc : c.wf = true) (ih : TimerAfter n b) :
    MatchNow b ↔ c.timerStep ∣ n + 1 := by
  obtain ⟨pos, le, aligned⟩ := ih
  rw [matchNow_iff_countsToMatch hc]
  constructor
  · intro one
    rwa [one] at aligned
  · intro multiple
    have apart : c.timerStep ∣ countsToMatch b - 1 := by
      have difference := Nat.dvd_sub aligned multiple
      rwa [Nat.add_sub_add_left] at difference
    have none_between := Nat.eq_zero_of_dvd_of_lt apart (by omega)
    omega

/-- A match puts the distance from 1 to `TIMER_STEP`, any other `TMR` takes one off it. -/
theorem timerAfter_tmr {n : Nat} (hc : c.wf = true) (ih : TimerAfter n b) :
    TimerAfter (n + 1) (tmr b) := by
  by_cases h : MatchNow b
  · have distance : countsToMatch (tmr b) = c.timerStep := countsToMatch_tmr_of_match hc h
    obtain ⟨-, -, -, step_pos, -⟩ := wf_parts hc
    have multiple : c.timerStep ∣ n + 1 := (ih.matchNow_iff hc).mp h
    exact ⟨by omega, by omega, distance.symm ▸ Nat.dvd_add_self_right.mpr multiple⟩
  · have nearer := countsToMatch_tmr_of_noMatch h ih.pos
    have notOne : countsToMatch b ≠ 1 := mt (matchNow_iff_countsToMatch hc b).mpr h
    obtain ⟨pos, le, aligned⟩ := ih
    have sameMatch : n + 1 + countsToMatch (tmr b) = n + countsToMatch b := by omega
    exact ⟨by omega, by omega, sameMatch ▸ aligned⟩

/-- A cycle counts its `TMR`, if it has one, whatever else it does. -/
theorem timerAfter_cycleOf {n : Nat} {w : Stim} (hc : c.wf = true) (h : Stim.por w = false)
    (ih : TimerAfter n b) : TimerAfter (n + (Stim.tmrEn w).toNat) (cycleOf (decode w) b) := by
  have onDone (e : Bool) : TimerAfter n ((if e then done else id) (beginCycle b)) := by
    cases e with
    | false => exact ih.congr rfl
    | true => exact ih.congr (countsToMatch_done (beginCycle b))
  have onTmr (e : Bool) {r : Block c} (hr : TimerAfter n r) :
      TimerAfter (n + e.toNat) ((if e then tmr else id) r) := by
    cases e with
    | false => exact hr
    | true => exact timerAfter_tmr hc hr
  have onPoll (e k1 k2 : Bool) {m : Nat} {r : Block c} (hr : TimerAfter m r) :
      TimerAfter m ((if e then poll k1 k2 else id) r) := by
    cases e with
    | false => exact hr
    | true => exact hr.congr (countsToMatch_poll k1 k2 r)
  rw [cycleOf_decode h]
  exact onPoll _ _ _ (onTmr _ (onDone _))

theorem timerAfter_cyclesOf {n : Nat} (hc : c.wf = true) (ws : List Stim)
    (h : ∀ x ∈ ws, Stim.por x = false) (ih : TimerAfter n b) :
    TimerAfter (n + (ws.filter Stim.tmrEn).length) (cyclesOf ws b) := by
  induction ws generalizing n b with
  | nil => exact ih
  | cons w ws rest =>
    obtain ⟨first, others⟩ := List.forall_mem_cons.mp h
    have counted : n + ((w :: ws).filter Stim.tmrEn).length =
        n + (Stim.tmrEn w).toNat + (ws.filter Stim.tmrEn).length := by
      cases hw : Stim.tmrEn w with
      | false => simp [hw]
      | true => simp [hw]; omega
    rw [counted]
    exact rest others (timerAfter_cycleOf hc first ih)

/-- The last of the words after `POR` has a compare match exactly if its `TMR` has such a number. -/
theorem wdIrq_since_por {ws : List Stim} {w : Stim} (hc : c.wf = true)
    (h : ∀ x ∈ ws, Stim.por x = false) (hw : Stim.por w = false) (b : Block c) :
    (cyclesOf (ws ++ [w]) (por b)).out.wdIrq = true ↔
      Stim.tmrEn w = true ∧ c.timerStep ∣ ((ws ++ [w]).filter Stim.tmrEn).length := by
  have before := timerAfter_cyclesOf hc ws h (timerAfter_por hc b)
  rw [cyclesOf_concat, cycleOf_wdIrq hw, Bool.and_eq_true, decide_eq_true_iff, before.matchNow_iff hc]
  refine and_congr_right fun counts => ?_
  simp [counts]

/-! ## Without an entry in progress (R128) -/

/-- From `b` to `r` only the timer and the one-cycle outputs moved. -/
def OnlyTimerMoved (b r : Block c) : Prop :=
  ∃ (n t : BitVec c.timerWidth) (o : Outputs), r = { b with tcnt := n, tcmp := t, out := o }

theorem OnlyTimerMoved.refl (b : Block c) : OnlyTimerMoved b b := ⟨_, _, _, rfl⟩

theorem OnlyTimerMoved.trans {b r t : Block c} (first : OnlyTimerMoved b r)
    (second : OnlyTimerMoved r t) : OnlyTimerMoved b t := by
  obtain ⟨_, _, _, rfl⟩ := first
  obtain ⟨_, _, _, rfl⟩ := second
  exact ⟨_, _, _, rfl⟩

theorem OnlyTimerMoved.gate_eq {b r : Block c} (h : OnlyTimerMoved b r) : r.gate = b.gate := by
  obtain ⟨_, _, _, rfl⟩ := h
  rfl

/-- The registers that moved are the ones of the block reached. -/
theorem OnlyTimerMoved.eq_with {b r : Block c} (h : OnlyTimerMoved b r) :
    r = { b with tcnt := r.tcnt, tcmp := r.tcmp, out := r.out } := by
  obtain ⟨_, _, _, rfl⟩ := h
  rfl

/-- With the gate closed a cycle of `TMR` counts, and the tick of a match does nothing. -/
theorem cycleOf_tmr_of_closed (closed : b.gate = false) :
    OnlyTimerMoved b (cycleOf .tmr b) ∧ (cycleOf .tmr b).out.entryTimedOut = false :=
  tmr_elim (P := fun r => OnlyTimerMoved b r ∧ r.out.entryTimedOut = false) (beginCycle b)
    (noMatch := fun _ => ⟨⟨_, _, _, rfl⟩, rfl⟩)
    (closed := fun _ _ => ⟨⟨_, _, _, rfl⟩, rfl⟩)
    (counts := fun _ opened => absurd (closed.symm.trans opened) Bool.noConfusion)
    (timesOut := fun _ opened => absurd (closed.symm.trans opened) Bool.noConfusion)

/-- Any number of `TMR` leaves a closed gate closed, and everything else but the timer as it was. -/
theorem cyclesOf_tmr_of_closed (closed : b.gate = false) (n : Nat) :
    OnlyTimerMoved b (cyclesOf (List.replicate n 0x08#6) b) := by
  induction n with
  | zero => exact .refl b
  | succ n ih =>
    obtain ⟨moved, -⟩ := cycleOf_tmr_of_closed (ih.gate_eq.trans closed)
    rw [List.replicate_succ', cyclesOf_concat]
    exact ih.trans moved

/-! ## The obligations -/

/-- Settles O48: the next match stays at the `TMR` whose number is the next multiple of `TIMER_STEP`, over
every cycle. -/
theorem timerFiresEveryTimerStep : Obligations.TimerFiresEveryTimerStep := by
  unfold Obligations.TimerFiresEveryTimerStep
  rintro ⟨c, b, q⟩ ws w hc h hw
  exact ⟨_, afterWords_eq_next hc b q _,
    (wdIrq_since_por hc h hw (beginCycle b)).trans (and_congr_right' Nat.dvd_iff_mod_eq_zero)⟩

/-- Settles O49: by induction on the number of `TMR`, since none of them opens the gate. -/
theorem noTimeoutWithoutAnEntry : Obligations.NoTimeoutWithoutAnEntry := by
  unfold Obligations.NoTimeoutWithoutAnEntry
  intro c b q n hc closed
  have before := cyclesOf_tmr_of_closed closed n
  obtain ⟨moved, noTimeout⟩ := cycleOf_tmr_of_closed (before.gate_eq.trans closed)
  refine ⟨_, afterWords_eq_next hc b q _, ?_⟩
  rw [List.replicate_succ', cyclesOf_concat]
  exact ⟨noTimeout, (before.trans moved).eq_with⟩

/-- Settles O29: `TMR` from the start of a cycle, without and with a compare match. -/
theorem tmrCountsAndFiresAtMatch : Obligations.TmrCountsAndFiresAtMatch := by
  unfold Obligations.TmrCountsAndFiresAtMatch
  exact fun c b q =>
    ⟨fun noMatch => exec_eq_of (tmr_noMatch (b := beginCycle b) noMatch),
      fun isMatch => exec_eq_of (tmr_match (b := beginCycle b) isMatch)⟩

/-- Settles O30: a compare match, then each of the three ways of its tick. -/
theorem watchdogTickCountsOrTimesOut : Obligations.WatchdogTickCountsOrTimesOut := by
  unfold Obligations.WatchdogTickCountsOrTimesOut
  intro c b q isMatch fired
  have runsTick : cycleOf .tmr b = wdTick fired := tmr_match (b := beginCycle b) isMatch
  exact ⟨fun closed => exec_eq_of (runsTick.trans (wdTick_closed closed)),
    fun opened below => exec_eq_of (runsTick.trans (wdTick_counts opened below)),
    fun opened reached => exec_eq_of (runsTick.trans (wdTick_timesOut opened reached))⟩

end Sys2Proof.Machine
end

section
/-! The feedback strobe (`42_feedback.md`): `DONE` ends it, and a `POLL` of the same cycle finds none
outstanding. -/

namespace Sys2Proof.Machine

variable {c : Config}

/-- `DONE` comes before the `POLL` of its cycle, which so acts as it does over no strobe (R147). -/
theorem cycleOf_donePoll (k1 k2 : Bool) (b : Block c) :
    cycleOf (.donePoll k1 k2) b = cycleOf (.poll k1 k2) { b with fb := .none } :=
  congrArg (poll k1 k2) (done_eq (b := beginCycle b))

/-- Settles O31: `DONE` from the start of a cycle, with a strobe, with a `POLL` after it, and without a
strobe. -/
theorem doneEndsTheStrobe : Obligations.DoneEndsTheStrobe := by
  unfold Obligations.DoneEndsTheStrobe
  intro c b q
  refine ⟨fun strobe => ?ends, fun _ k1 k2 => ?polls, fun noStrobe => ?nothing⟩
  case ends => exact exec_eq_of (done_of_strobe (b := beginCycle b) strobe)
  case polls => rw [exec_eq_next, exec_eq_next, cycleOf_donePoll]
  case nothing => exact exec_eq_of (done_of_none (b := beginCycle b) noStrobe)

end Sys2Proof.Machine
end

section
/-! The lock state machine (`43_lock_fsm.md`): a `POLL` from the start of a cycle, by phase, event, count and
Mode. -/

namespace Sys2Proof.Machine

variable {c : Config} {b : Block c} {k1 k2 : Bool}

/-! ## A `POLL` over the outputs of a fresh cycle -/

/-- A `POLL` acts over inactive outputs (R41, R160). -/
theorem exec_poll_of {r : Block c} (h : poll k1 k2 (beginCycle b) = r) (q : List Stim) :
    exec (.poll k1 k2) ⟨c, b, q⟩ = .next ⟨c, r, q⟩ := exec_eq_of h

/-- The block as the sixth entry hands it to the completion of its Mode: `Accumulate()` has shifted the digit
in and armed the watchdog (R169). -/
def sixthEntered (b : Block c) (k1 k2 : Bool) : Block c :=
  { releasedRun b k1 k2 with acc := accAfter b, gate := true, ticks := 0#8 }

theorem poll_run_sixth_unlocked (noStrobe : b.fb = .none) (inRun : b.phase = .run)
    (released : ReleaseNow b k1 k2) (sixth : b.count.val = 5) (unlocked : b.mode = .unlocked) :
    poll k1 k2 b = completeLock (sixthEntered b k1 k2) :=
  (poll_run_release noStrobe inRun released).trans
    (accumulate_sixth_unlocked (b := releasedRun b k1 k2) sixth unlocked)

theorem poll_run_sixth_locked (noStrobe : b.fb = .none) (inRun : b.phase = .run)
    (released : ReleaseNow b k1 k2) (sixth : b.count.val = 5) (locked : b.mode = .locked) :
    poll k1 k2 b = completeAttempt (sixthEntered b k1 k2) :=
  (poll_run_release noStrobe inRun released).trans
    (accumulate_sixth_locked (b := releasedRun b k1 k2) sixth locked)

/-! ## The obligations -/

/-- Settles O21: the guard of `POLL` fails, so only the start of the cycle acts. -/
theorem pollSuspendedDuringStrobe : Obligations.PollSuspendedDuringStrobe := by
  unfold Obligations.PollSuspendedDuringStrobe
  intro c b q k1 k2 strobe
  exact exec_poll_of (poll_suspended strobe) q

/-- Settles O22: a key held, a code stored, or an empty store. -/
theorem bootStepDecides : Obligations.BootStepDecides := by
  unfold Obligations.BootStepDecides
  intro c b q k1 k2 inBoot noStrobe
  refine ⟨fun held => ?bypass, fun notHeld coded => ?locked, fun notHeld empty => ?unlocked⟩
  case bypass => exact exec_poll_of (poll_boot_bypass noStrobe inBoot held) q
  case locked => exact exec_poll_of (poll_boot_locked noStrobe inBoot notHeld coded) q
  case unlocked => exact exec_poll_of (poll_boot_unlocked noStrobe inBoot notHeld empty) q

/-- Settles O23: a press, a release, or no event in BYPASS. -/
theorem bypassWaitsForPressAndRelease : Obligations.BypassWaitsForPressAndRelease := by
  unfold Obligations.BypassWaitsForPressAndRelease
  intro c b q k1 k2 inBypass noStrobe
  refine ⟨fun pressed => ?press, fun released => ?release, fun notPressed notReleased => ?neither⟩
  case press => exact exec_poll_of (poll_bypass_press noStrobe inBypass pressed) q
  case release => exact exec_poll_of (poll_bypass_release noStrobe inBypass released) q
  case neither => exact exec_poll_of (poll_bypass_none noStrobe inBypass notPressed notReleased) q

/-- Settles O25: the press branch of RUN, where no command of the cycle precedes the background. -/
theorem pressInRunShowsBlue : Obligations.PressInRunShowsBlue := by
  unfold Obligations.PressInRunShowsBlue
  intro c b q k1 k2 inRun noStrobe pressed
  exact exec_poll_of (poll_run_press noStrobe inRun pressed) q

/-- Settles O26: an entry below the sixth is only counted, and the sixth goes on to the completion of its
Mode. -/
theorem releaseInRunMakesAnEntry : Obligations.ReleaseInRunMakesAnEntry := by
  unfold Obligations.ReleaseInRunMakesAnEntry
  intro c b q k1 k2 inRun noStrobe released entered
  refine ⟨fun below => ?counted, fun sixth unlocked => ?lock, fun sixth locked => ?attempt⟩
  case counted => exact exec_poll_of (poll_run_entry noStrobe inRun released below) q
  case lock => exact exec_poll_of (poll_run_sixth_unlocked noStrobe inRun released sixth unlocked) q
  case attempt => exact exec_poll_of (poll_run_sixth_locked noStrobe inRun released sixth locked) q

/-- Settles O27: the sixth entry in Unlocked, completed. -/
theorem sixthEntryLocks : Obligations.SixthEntryLocks := by
  unfold Obligations.SixthEntryLocks
  intro c b q k1 k2 inRun noStrobe unlocked released sixth
  exact exec_poll_of (poll_run_lock noStrobe inRun released sixth unlocked) q

/-- Settles O28: the sixth entry in Locked, equal to the stored byte or different from it. -/
theorem completedAttemptIsCompared : Obligations.CompletedAttemptIsCompared := by
  unfold Obligations.CompletedAttemptIsCompared
  intro c b q k1 k2 inRun noStrobe locked released sixth
  refine ⟨fun equal => ?unlocks, fun different => ?fails⟩
  case unlocks => exact exec_poll_of (poll_run_match noStrobe inRun released sixth locked equal) q
  case fails => exact exec_poll_of (poll_run_mismatch noStrobe inRun released sixth locked different) q

end Sys2Proof.Machine
end

section
/-! Reset and hazards (`70_reset_and_hazards.md`): `POR` leaves the reset table over the store as it stands,
and while a strobe is outstanding only the timer runs. -/

namespace Sys2Proof.Machine

variable {c : Config} {b r : Block c}

/-! ## A strobe that is not ended (R247) -/

theorem OnlyTimerMoved.fb_eq (h : OnlyTimerMoved b r) : r.fb = b.fb := by
  obtain ⟨_, _, _, rfl⟩ := h
  rfl

theorem beginCycle_onlyTimerMoved (b : Block c) : OnlyTimerMoved b (beginCycle b) := ⟨_, _, _, rfl⟩

/-- With the gate closed `TMR` counts, and the tick of a match does nothing. -/
theorem tmr_onlyTimerMoved (closed : b.gate = false) : OnlyTimerMoved b (tmr b) :=
  tmr_elim (P := OnlyTimerMoved b) b
    (noMatch := fun _ => ⟨_, _, _, rfl⟩)
    (closed := fun _ _ => ⟨_, _, _, rfl⟩)
    (counts := fun _ opened => absurd (closed.symm.trans opened) Bool.noConfusion)
    (timesOut := fun _ opened => absurd (closed.symm.trans opened) Bool.noConfusion)

/-- A cycle without `POR` and `DONE` can only count: the closed gate (R42 I1) keeps its `TMR` from timing
out, and its `POLL` is suspended. -/
theorem cycleOf_of_strobe {w : Stim} (noPor : Stim.por w = false) (noDone : Stim.indDone w = false)
    (strobe : b.fb ≠ .none) (closed : b.gate = false) : OnlyTimerMoved b (cycleOf (decode w) b) := by
  have onTmr (e : Bool) : OnlyTimerMoved b ((if e then tmr else id) (beginCycle b)) := by
    cases e with
    | false => exact beginCycle_onlyTimerMoved b
    | true => exact (beginCycle_onlyTimerMoved b).trans (tmr_onlyTimerMoved (b := beginCycle b) closed)
  have onPoll (e k1 k2 : Bool) {r : Block c} (moved : OnlyTimerMoved b r) :
      OnlyTimerMoved b ((if e then poll k1 k2 else id) r) := by
    have strobe' : r.fb ≠ .none := moved.fb_eq ▸ strobe
    cases e with
    | false => exact moved
    | true => rwa [if_pos rfl, poll_suspended strobe']
  rw [cycleOf_decode noPor, noDone]
  exact onPoll _ _ _ (onTmr _)

/-- Such a cycle leaves the strobe outstanding and the gate closed, so the next one is such a cycle again. -/
theorem cyclesOf_of_strobe (ws : List Stim)
    (noEnd : ∀ w ∈ ws, Stim.por w = false ∧ Stim.indDone w = false)
    (strobe : b.fb ≠ .none) (closed : b.gate = false) : OnlyTimerMoved b (cyclesOf ws b) := by
  induction ws generalizing b with
  | nil => exact .refl b
  | cons w ws ih =>
    obtain ⟨⟨noPor, noDone⟩, rest⟩ := List.forall_mem_cons.mp noEnd
    have moved := cycleOf_of_strobe noPor noDone strobe closed
    exact moved.trans (ih rest (moved.fb_eq ▸ strobe) (moved.gate_eq.trans closed))

/-! ## The obligations -/

/-- Settles O52: the invariants close the gate while a strobe is outstanding, and no cycle of the sequence
ends the strobe or opens the gate. -/
theorem strobeBlocksUntilDoneOrPor : Obligations.StrobeBlocksUntilDoneOrPor := by
  unfold Obligations.StrobeBlocksUntilDoneOrPor
  intro c b q ws inv strobe noEnd
  obtain ⟨-, closed, -⟩ := inv.invariants.i1 strobe
  exact ⟨_, afterWords_eq_next inv.cfgWf b q ws, (cyclesOf_of_strobe ws noEnd strobe closed).eq_with⟩

/-- Settles O19: a cycle of `POR` is `Block.reset` over the store it finds. -/
theorem porResetsAllButTheStore : Obligations.PorResetsAllButTheStore := by
  unfold Obligations.PorResetsAllButTheStore
  exact fun c b q => exec_eq_next .por b q

end Sys2Proof.Machine
end

section
/-! The stimulus word (`30_encoding.md` sections 1 and 2): decoding and encoding undo each other up to unread
bits, and the opcode map covers every word once. -/

namespace Sys2Proof.Machine

/-! ## Decoding what was encoded -/

/-- A word that polls hands both key lines to the operation its other fields name. -/
theorem decode_stimWord_poll : ∀ d t k1 k2 : Bool, decode (stimWord false d t true k1 k2) =
    match d, t with
    | false, false => .poll k1 k2
    | false, true => .tmrPoll k1 k2
    | true, false => .donePoll k1 k2
    | true, true => .doneTmrPoll k1 k2 := by decide

theorem decode_encode (i : Instr) : decode (encode i) = i := by
  cases i with
  | por => decide
  | idle => decide
  | tmr => decide
  | done => decide
  | doneTmr => decide
  | poll k1 k2 => exact decode_stimWord_poll false false k1 k2
  | tmrPoll k1 k2 => exact decode_stimWord_poll false true k1 k2
  | donePoll k1 k2 => exact decode_stimWord_poll true false k1 k2
  | doneTmrPoll k1 k2 => exact decode_stimWord_poll true true k1 k2

/-- The byte form of a word is below the bytes that are no word (R70). -/
theorem decodeBytes_setWidth (w : Stim) (rest : List Byte) :
    decodeBytes (w.setWidth 8 :: rest) = .ok (decode w, rest) := by
  have below : (w.setWidth 8).toNat < 64 := by
    rw [BitVec.toNat_setWidth_of_le (by decide)]
    exact w.isLt
  have sameWord : (w.setWidth 8).setWidth 6 = w := BitVec.setWidth_setWidth_of_le w (by decide)
  rw [decodeBytes, if_pos below, sameWord]

/-- The opcode table numbers a word by its value. -/
theorem decodeTableWord_toNat (w : Stim) : decodeTableWord 8 w.toNat = some (decode w) := by
  have value : w.toNat % 2 ^ 8 = w.toNat := Nat.mod_eq_of_lt (by have := w.isLt; omega)
  simp only [decodeTableWord, value, if_pos w.isLt, BitVec.ofNat_toNat, decodeBytes_setWidth]

/-! ## Encoding what was decoded -/

/-- A word is its six fields (R70). -/
theorem stimWord_fields : ∀ w : Stim, stimWord (Stim.por w) (Stim.indDone w) (Stim.tmrEn w)
    (Stim.pollEn w) (Stim.k1 w) (Stim.k2 w) = w := by decide

/-- The mask of the words without key operands clears the key lines. -/
theorem stimWord_mask : ∀ d t k1 k2 : Bool,
    stimWord false d t false k1 k2 &&& 0x3C#6 = stimWord false d t false false false := by decide

/-- Encoding gives a word back with its unread bits 0: all but bit 5 of a `POR`, and the key lines of a word
that does not poll. -/
theorem encode_decode (w : Stim) : encode (decode w) = canonicalWord w := by
  cases hpor : Stim.por w with
  | true => rw [decode_of_por hpor, canonicalWord_of_por hpor]; decide
  | false =>
    have fields := stimWord_fields w
    cases hpoll : Stim.pollEn w with
    | true =>
      rw [canonicalWord_of_poll hpor hpoll]
      refine Eq.trans ?_ fields
      simp only [decode, hpor, hpoll]
      cases Stim.indDone w <;> cases Stim.tmrEn w <;> rfl
    | false =>
      have masked : w &&& 0x3C#6 = stimWord false (Stim.indDone w) (Stim.tmrEn w) false false false := by
        rw [hpor, hpoll] at fields
        conv_lhs => rw [← fields]
        exact stimWord_mask _ _ _ _
      rw [canonicalWord_of_noPoll hpor hpoll, masked]
      simp only [decode, hpor, hpoll]
      cases Stim.indDone w <;> cases Stim.tmrEn w <;> rfl

/-! ## The obligations -/

/-- Settles O3: one case per operation one way, one per class of the opcode map the other. -/
theorem decodeEncodeAgree : Obligations.DecodeEncodeAgree := by
  unfold Obligations.DecodeEncodeAgree
  refine ⟨fun i rest => ⟨decode_encode i, ?bytes, ?table⟩, encode_decode⟩
  case bytes => rw [encodeByte, decodeBytes_setWidth, decode_encode]
  case table => rw [decodeTableWord_toNat, decode_encode]

/-- Settles O1: the words are concrete. -/
theorem specWordsDecode : Obligations.SpecWordsDecode := by
  unfold Obligations.SpecWordsDecode
  decide

/-- Settles O2: the opcode map has nine rows and there are 64 words. -/
theorem everyWordInExactlyOneClass : Obligations.EveryWordInExactlyOneClass := by
  unfold Obligations.EveryWordInExactlyOneClass
  decide

end Sys2Proof.Machine
end

section
/-! Parameters, power-up and sequences (`00_scope.md`, `10_state.md`): what a step runs and when it refuses, the
reset table at the first power-up, and R42 over every sequence of words. -/

namespace Sys2Proof.Machine

variable {c : Config} {b : Block c} {q : List Stim}

/-- A configuration that breaks one constraint of R6 to R8 is ill-formed. -/
theorem not_wf_of_bad (bad : c.depth = 0 ∨ c.marker = 0#2 ∨ c.timeoutTicks = 0 ∨ 255 < c.timeoutTicks ∨
    c.timerStep = 0 ∨ 2 ^ c.timerWidth ≤ c.timerStep) : ¬ c.wf = true := fun hc => by
  obtain ⟨depth_pos, marker_ne, ⟨timeout_pos, timeout_le⟩, step_pos, step_lt⟩ := wf_parts hc
  rcases bad with bad | bad | bad | bad | bad | bad
  · omega
  · exact marker_ne bad
  · omega
  · omega
  · omega
  · omega

/-- At the power-up nothing is listed in the store, so its one address reads as `nv0` (R11, R51). -/
theorem read_nil (u : Byte) (a : Nat) : Memory.read u [] a = if a = 23 then some u else none := rfl

theorem powerUp_inv (hc : c.wf = true) : Inv (State.powerUp c) := inv_reset hc wf_nil (.inl rfl)

/-- R42 over any sequence of words, by induction on it. -/
theorem cyclesOf_keeps_inv (ws : List Stim) (h : Inv ⟨c, b, q⟩) : Inv ⟨c, cyclesOf ws b, q⟩ := by
  induction ws generalizing b with
  | nil => exact h
  | cons w ws ih => exact ih (cycleOf_keeps_inv (decode w) h)

/-! ## The obligations -/

/-- Settles O5: the first listed word is the next word, and the rest stays listed. -/
theorem stepRunsTheDecodedWord : Obligations.StepRunsTheDecodedWord := by
  unfold Obligations.StepRunsTheDecodedWord
  intro c b w rest hc
  rw [step_cons hc, exec_eq_next]

/-- Settles O6: an empty list gives the word of `IDLE`. -/
theorem noListedWordIsIdle : Obligations.NoListedWordIsIdle := by
  unfold Obligations.NoListedWordIsIdle
  intro c b hc
  rw [step_nil hc, exec_eq_next]

/-- Settles O8: `step` looks at the parameters before it takes a word. -/
theorem badConfigurationRefused : Obligations.BadConfigurationRefused := by
  unfold Obligations.BadConfigurationRefused
  exact fun s bad => if_neg (not_wf_of_bad bad)

/-- Settles O20: the power-up is `Block.reset` over a store that lists nothing. -/
theorem powerUpHoldsTheResetTable : Obligations.PowerUpHoldsTheResetTable := by
  unfold Obligations.PowerUpHoldsTheResetTable
  exact ⟨fun c => ⟨Block.reset c [], rfl, rfl, rfl, rfl, rfl, rfl, rfl, rfl, rfl, rfl, rfl, rfl, rfl, rfl, rfl,
    read_nil c.nv0⟩, rfl⟩

/-- Settles O37: the power-up is a reset over the canonical store that reads as `nv0`. -/
theorem powerUpMeetsTheInvariants : Obligations.PowerUpMeetsTheInvariants := by
  unfold Obligations.PowerUpMeetsTheInvariants
  have reset_wf : (Config.cfgT 0x00#8).wf = true := by decide
  exact ⟨fun c hc => powerUp_inv hc, powerUp_inv reset_wf⟩

/-- Settles O39: the power-up meets R42 and every word of the sequence keeps it. -/
theorem everyStimulusKeepsTheInvariants : Obligations.EveryStimulusKeepsTheInvariants := by
  unfold Obligations.EveryStimulusKeepsTheInvariants
  intro c ws hc
  exact ⟨_, afterWords_eq_next hc (Block.reset c []) [] ws, cyclesOf_keeps_inv ws (powerUp_inv hc)⟩

end Sys2Proof.Machine
end

section
/-! What a whole cycle keeps, from what its micro-operations keep: the frame of the store, the byte a cycle saves,
the colour of the latch, and the ways the Mode changes. -/

namespace Sys2Proof.Machine

variable {c : Config} {b r : Block c} {q : List Stim}

/-! ## A cycle as its stages -/

/-- A cycle without `POR` is `DONE`, `TMR`, `POLL`, each enabled or not (R73): what holds before the `TMR`, what
holds between `TMR` and `POLL`, and what holds at the end. -/
theorem cycle_stages {Before Between After : Block c → Prop} (i : Instr) (b : Block c)
    (reset : i = .por → After (por (beginCycle b)))
    (start : Before (beginCycle b)) (onDone : ∀ r, Before r → Before (done r))
    (noTmr : ∀ r, Before r → Between r) (onTmr : ∀ r, Before r → Between (tmr r))
    (noPoll : ∀ r, Between r → After r)
    (onPoll : ∀ k1 k2, pollKeys i = some (k1, k2) → ∀ r, Between r → After (poll k1 k2 r)) :
    After (cycleOf i b) := by
  have done' := onDone _ start
  cases i with
  | por => exact reset rfl
  | idle => exact noPoll _ (noTmr _ start)
  | poll k1 k2 => exact onPoll k1 k2 rfl _ (noTmr _ start)
  | tmr => exact noPoll _ (onTmr _ start)
  | tmrPoll k1 k2 => exact onPoll k1 k2 rfl _ (onTmr _ start)
  | done => exact noPoll _ (noTmr _ done')
  | donePoll k1 k2 => exact onPoll k1 k2 rfl _ (noTmr _ done')
  | doneTmr => exact noPoll _ (onTmr _ done')
  | doneTmrPoll k1 k2 => exact onPoll k1 k2 rfl _ (onTmr _ done')

/-! ## The store after a cycle (`20_memory.md`) -/

/-- Address 23 reads as `nv`, and no other exists (R51). -/
theorem read_eq (b : Block c) (a : Nat) :
    Memory.read c.nv0 b.store a = if a = 23 then some b.nv else none := by
  by_cases h : a = 23
  · rw [if_pos h, h]
    exact read_storeAddr b
  · rw [if_neg h]
    exact if_neg h

/-- The store is canonical, and `nv` is the byte on the write output, if there is one. -/
def StoreHoldsWrite (r : Block c) : Prop :=
  Memory.wf c.nv0 r.store = true ∧ ∀ v, r.out.nvWrite = some v → r.nv = v

/-- A write made into a canonical store is the byte the store then holds. -/
theorem storeHoldsWrite_of_write (canonical : Memory.wf c.nv0 b.store = true) {v : Byte}
    (store : r.store = Memory.write c.nv0 b.store storeAddr v) (written : r.out.nvWrite = some v) :
    StoreHoldsWrite r := by
  refine ⟨by rw [store]; exact wf_write canonical, fun v' h => ?_⟩
  obtain rfl : v = v' := Option.some_inj.mp (written.symm.trans h)
  rw [Block.nv, store]
  exact nv_write canonical

theorem poll_storeHoldsWrite (k1 k2 : Bool) (h : StoreHoldsWrite b) :
    StoreHoldsWrite (poll k1 k2 b) :=
  poll_elim (P := StoreHoldsWrite) b k1 k2
    (suspended := fun _ => h)
    (bootBypass := fun _ _ _ => h)
    (bootLocked := fun _ _ _ _ => h)
    (bootUnlocked := fun _ _ _ _ => storeHoldsWrite_of_write h.1 rfl rfl)
    (bypassPress := fun _ _ _ => h)
    (bypassRelease := fun _ _ _ => storeHoldsWrite_of_write h.1 rfl rfl)
    (bypassNone := fun _ _ _ _ => h)
    (runPress := fun _ _ _ => h)
    (runNone := fun _ _ _ _ => h)
    (runEntry := fun _ _ _ _ => h)
    (runLock := fun _ _ _ _ _ => storeHoldsWrite_of_write h.1 rfl rfl)
    (runMatch := fun _ _ _ _ _ _ => storeHoldsWrite_of_write h.1 rfl rfl)
    (runMismatch := fun _ _ _ _ _ _ => h)

theorem cycleOf_storeHoldsWrite (i : Instr) (canonical : Memory.wf c.nv0 b.store = true) :
    StoreHoldsWrite (cycleOf i b) :=
  cycle_induction (P := StoreHoldsWrite) i b
    (start := ⟨canonical, nofun⟩)
    (reset := fun _ => ⟨canonical, nofun⟩)
    (onDone := fun r h => by rw [done_eq]; exact h)
    (onTmr := fun r h => by
      obtain ⟨store, -, written⟩ := tmr_noAccess r
      rw [StoreHoldsWrite, nv_congr store, store, written]
      exact h)
    (onPoll := fun k1 k2 r => poll_storeHoldsWrite k1 k2)

/-! ## The byte a cycle saves (R172) -/

/-- A saved byte is the sentinel on entering Unlocked, or a marked non-zero code on entering Locked. -/
def SavedByteOk (r : Block c) : Prop :=
  ∀ v, r.out.nvWrite = some v →
    (v = 0x00#8 ∧ r.mode = .unlocked) ∨ (v.extractLsb' 6 2 = c.marker ∧ v ≠ 0x00#8 ∧ r.mode = .locked)

theorem savedByteOk_of_noWrite (h : r.out.nvWrite = none) : SavedByteOk r := fun _ written => by
  simp [h] at written

theorem savedByteOk_of_sentinel (written : r.out.nvWrite = some 0x00#8) (unlocked : r.mode = .unlocked) :
    SavedByteOk r := fun _ h => .inl ⟨(Option.some_inj.mp (written.symm.trans h)).symm, unlocked⟩

/-- The marker is not 0, so neither is a byte that carries it (R7). -/
theorem ne_zero_of_marked (hc : c.wf = true) {v : Byte} (marked : v.extractLsb' 6 2 = c.marker) :
    v ≠ 0x00#8 := by
  obtain ⟨-, marker_ne, -⟩ := wf_parts hc
  rintro rfl
  exact marker_ne (marked.symm.trans (by decide))

theorem savedByteOk_of_marked (hc : c.wf = true) {v : Byte} (marked : v.extractLsb' 6 2 = c.marker)
    (written : r.out.nvWrite = some v) (locked : r.mode = .locked) : SavedByteOk r := fun v' h => by
  obtain rfl : v = v' := Option.some_inj.mp (written.symm.trans h)
  exact .inr ⟨marked, ne_zero_of_marked hc marked, locked⟩

theorem poll_savedByteOk (k1 k2 : Bool) (h : Inv ⟨c, b, q⟩) (noWrite : b.out.nvWrite = none) :
    SavedByteOk (poll k1 k2 b) :=
  poll_elim (P := SavedByteOk) b k1 k2
    (suspended := fun _ => savedByteOk_of_noWrite noWrite)
    (bootBypass := fun _ _ _ => savedByteOk_of_noWrite noWrite)
    (bootLocked := fun _ _ _ _ => savedByteOk_of_noWrite noWrite)
    (bootUnlocked := fun _ _ _ _ => savedByteOk_of_sentinel rfl rfl)
    (bypassPress := fun _ _ _ => savedByteOk_of_noWrite noWrite)
    (bypassRelease := fun _ _ _ => savedByteOk_of_sentinel rfl rfl)
    (bypassNone := fun _ _ _ _ => savedByteOk_of_noWrite noWrite)
    (runPress := fun _ _ _ => savedByteOk_of_noWrite noWrite)
    (runNone := fun _ _ _ _ => savedByteOk_of_noWrite noWrite)
    (runEntry := fun _ _ _ _ => savedByteOk_of_noWrite noWrite)
    (runLock := fun _ _ _ sixth _ =>
      savedByteOk_of_marked h.cfgWf (accAfter_topBits h.invariants sixth) rfl rfl)
    (runMatch := fun _ _ _ _ _ _ => savedByteOk_of_sentinel rfl rfl)
    (runMismatch := fun _ _ _ _ _ _ => savedByteOk_of_noWrite noWrite)

/-- Before its `POLL` a cycle keeps R42 and writes nothing. -/
theorem cycleOf_savedByteOk (i : Instr) (h : Inv ⟨c, b, q⟩) : SavedByteOk (cycleOf i b) := by
  refine cycle_stages (Before := fun r => Inv ⟨c, r, q⟩ ∧ r.out.nvWrite = none)
    (Between := fun r => Inv ⟨c, r, q⟩ ∧ r.out.nvWrite = none) i b
    (reset := fun _ => savedByteOk_of_noWrite rfl)
    (start := ⟨beginCycle_keeps_inv h, rfl⟩)
    (onDone := fun r ⟨inv, noWrite⟩ => ⟨done_keeps_inv inv, by rw [done_eq]; exact noWrite⟩)
    (noTmr := fun r same => same)
    (onTmr := fun r ⟨inv, noWrite⟩ => ?onTmr)
    (noPoll := fun r ⟨_, noWrite⟩ => savedByteOk_of_noWrite noWrite)
    (onPoll := fun k1 k2 _ r ⟨inv, noWrite⟩ => poll_savedByteOk k1 k2 inv noWrite)
  case onTmr =>
    obtain ⟨-, -, written⟩ := tmr_noAccess r
    exact ⟨tmr_keeps_inv inv, written.trans noWrite⟩

/-! ## The colour of the latch (R251) -/

/-- The latch is not Green and no command of the cycle is Off. -/
def LatchOk (r : Block c) : Prop := r.ind ≠ .green ∧ .off ∉ r.out.indWrites

/-- Commands other than Off, the last of them not Green, keep the latch so. -/
theorem LatchOk.commands (h : LatchOk b) {xs : List VisualState} (shown : r.ind ≠ .green)
    (commands : r.out.indWrites = b.out.indWrites ++ xs) (noOff : .off ∉ xs) : LatchOk r := by
  refine ⟨shown, fun off => ?_⟩
  rw [commands, List.mem_append] at off
  exact off.elim h.2 noOff

theorem backgroundShown_ne_green : ∀ m : Mode, backgroundShown m ≠ .green
  | .unlocked => by decide
  | .locked => by decide

theorem off_notMem_backgroundWrites : ∀ m : Mode, .off ∉ backgroundWrites m
  | .unlocked => by decide
  | .locked => by decide

theorem tmr_latchOk (h : LatchOk b) : LatchOk (tmr b) :=
  tmr_elim (P := LatchOk) b
    (noMatch := fun _ => h)
    (closed := fun _ _ => h)
    (counts := fun _ _ _ => h)
    (timesOut := fun _ _ _ => h.commands nofun rfl (by decide))

theorem poll_latchOk (k1 k2 : Bool) (h : LatchOk b) : LatchOk (poll k1 k2 b) :=
  have background := off_notMem_backgroundWrites b.mode
  poll_elim (P := LatchOk) b k1 k2
    (suspended := fun _ => h)
    (bootBypass := fun _ _ _ => h)
    (bootLocked := fun _ _ _ _ => h)
    (bootUnlocked := fun _ _ _ _ => h)
    (bypassPress := fun _ _ _ => h)
    (bypassRelease := fun _ _ _ => h)
    (bypassNone := fun _ _ _ _ => h)
    (runPress := fun _ _ _ => h.commands nofun rfl (by simp [background]))
    (runNone := fun _ _ _ _ => h.commands (backgroundShown_ne_green b.mode) rfl background)
    (runEntry := fun _ _ _ _ => h.commands (backgroundShown_ne_green b.mode) rfl background)
    (runLock := fun _ _ _ _ _ => h.commands nofun rfl (by decide))
    (runMatch := fun _ _ _ _ _ _ => h.commands nofun rfl (by decide))
    (runMismatch := fun _ _ _ _ _ _ => h.commands nofun rfl (by decide))

theorem cycleOf_latchOk (i : Instr) (notGreen : b.ind ≠ .green) : LatchOk (cycleOf i b) :=
  cycle_induction (P := LatchOk) i b
    (start := ⟨notGreen, List.not_mem_nil⟩)
    (reset := fun _ => ⟨nofun, List.not_mem_nil⟩)
    (onDone := fun r h => by rw [done_eq]; exact h)
    (onTmr := fun r => tmr_latchOk)
    (onPoll := fun k1 k2 r => poll_latchOk k1 k2)

/-! ## The lock up to the `POLL` of a cycle -/

/-- What the `DONE` and the `TMR` of a cycle leave of `b` for its `POLL`: the Mode, the phase, the store and the
debouncer, and the entry unless a strobe is outstanding. -/
structure LockKept (b r : Block c) : Prop where
  hist : r.hist = b.hist
  pressed : r.pressed = b.pressed
  phase : r.phase = b.phase
  mode : r.mode = b.mode
  store : r.store = b.store
  keyDown : r.keyDown = b.keyDown
  entry : r.fb = .none → r.count = b.count ∧ r.acc = b.acc

/-- Before the `TMR` the entry is there, strobe or not. -/
structure LockUntouched (b r : Block c) : Prop extends LockKept b r where
  count : r.count = b.count
  acc : r.acc = b.acc

theorem beginCycle_lockUntouched (b : Block c) : LockUntouched b (beginCycle b) :=
  ⟨⟨rfl, rfl, rfl, rfl, rfl, rfl, fun _ => ⟨rfl, rfl⟩⟩, rfl, rfl⟩

theorem done_lockUntouched (h : LockUntouched b r) : LockUntouched b (done r) := by
  rw [done_eq]
  exact { h with entry := fun _ => ⟨h.count, h.acc⟩ }

/-- A `TMR` gives up the entry only for a strobe. -/
theorem tmr_lockKept (h : LockUntouched b r) : LockKept b (tmr r) := by
  have entry : (tmr r).fb = .none → (tmr r).count = b.count ∧ (tmr r).acc = b.acc :=
    tmr_elim (P := fun t => t.fb = .none → t.count = b.count ∧ t.acc = b.acc) r
      (noMatch := fun _ _ => ⟨h.count, h.acc⟩)
      (closed := fun _ _ _ => ⟨h.count, h.acc⟩)
      (counts := fun _ _ _ _ => ⟨h.count, h.acc⟩)
      (timesOut := fun _ _ _ => nofun)
  obtain ⟨hist, pressed, keyDown, phase, mode, store, -⟩ := tmr_frame r
  exact ⟨hist.trans h.hist, pressed.trans h.pressed, phase.trans h.phase, mode.trans h.mode,
    store.trans h.store, keyDown.trans h.keyDown, entry⟩

/-- The release condition reads the debouncer alone. -/
theorem LockKept.releaseNow {k1 k2 : Bool} (h : LockKept b r) (hr : ReleaseNow r k1 k2) :
    ReleaseNow b k1 k2 := by
  obtain ⟨allUp, pressed⟩ := hr
  rw [histAfter, h.hist] at allUp
  exact ⟨allUp, h.pressed.symm.trans pressed⟩

/-- With no strobe outstanding the accumulator of the coming release is that of the cycle's start. -/
theorem LockKept.accAfter_eq (h : LockKept b r) (noStrobe : r.fb = .none) : accAfter r = accAfter b := by
  rw [accAfter, accAfter, (h.entry noStrobe).2, h.keyDown]

/-! ## Out of Locked (R211) -/

/-- The condition of one of the three ways from Locked to Unlocked. -/
abbrev UnlockNow (b : Block c) (k1 k2 : Bool) : Prop :=
  (b.phase = .run ∧ ReleaseNow b k1 k2 ∧ b.count.val = 5 ∧ b.nv = accAfter b) ∨
    (b.phase = .bypass ∧ ReleaseNow b k1 k2) ∨ (b.phase = .boot ∧ (k1 || k2) = false ∧ b.nv = 0x00#8)

theorem LockKept.unlockNow {k1 k2 : Bool} (h : LockKept b r) (noStrobe : r.fb = .none)
    (unlock : UnlockNow r k1 k2) : UnlockNow b k1 k2 := by
  have nv : r.nv = b.nv := nv_congr h.store
  obtain ⟨count, -⟩ := h.entry noStrobe
  rcases unlock with ⟨run, released, sixth, equal⟩ | ⟨bypass, released⟩ | ⟨boot, up, empty⟩
  · exact .inl ⟨h.phase.symm.trans run, h.releaseNow released, count ▸ sixth,
      nv.symm.trans (equal.trans (h.accAfter_eq noStrobe))⟩
  · exact .inr (.inl ⟨h.phase.symm.trans bypass, h.releaseNow released⟩)
  · exact .inr (.inr ⟨h.phase.symm.trans boot, up, nv.symm.trans empty⟩)

/-- A `POLL` leaves Locked, if it does, into a running block by one of the three ways. -/
theorem poll_unlocks (k1 k2 : Bool) (locked : b.mode = .locked) :
    (poll k1 k2 b).mode = .unlocked →
      b.fb = .none ∧ (poll k1 k2 b).phase = .run ∧ UnlockNow b k1 k2 :=
  have stays {x : Prop} (h : b.mode = .unlocked) : x := absurd (locked.symm.trans h) nofun
  poll_elim (P := fun r => r.mode = .unlocked → b.fb = .none ∧ r.phase = .run ∧ UnlockNow b k1 k2) b k1 k2
    (suspended := fun _ => stays)
    (bootBypass := fun _ _ _ => stays)
    (bootLocked := fun _ _ _ _ => nofun)
    (bootUnlocked := fun hf hp hk hv _ => ⟨hf, rfl, .inr (.inr ⟨hp, hk, hv⟩)⟩)
    (bypassPress := fun _ _ _ => stays)
    (bypassRelease := fun hf hp h _ => ⟨hf, rfl, .inr (.inl ⟨hp, h⟩)⟩)
    (bypassNone := fun _ _ _ _ => stays)
    (runPress := fun _ _ _ => stays)
    (runNone := fun _ _ _ _ => stays)
    (runEntry := fun _ _ _ _ => stays)
    (runLock := fun _ _ _ _ _ => nofun)
    (runMatch := fun hf hp h hn _ hv _ => ⟨hf, hp, .inl ⟨hp, h, hn, hv⟩⟩)
    (runMismatch := fun _ _ _ _ _ _ => stays)

theorem cycleOf_unlocks (i : Instr) (locked : b.mode = .locked) :
    (cycleOf i b).mode = .unlocked →
      ∃ k1 k2 : Bool, pollKeys i = some (k1, k2) ∧ (cycleOf i b).phase = .run ∧ UnlockNow b k1 k2 :=
  cycle_stages (Before := LockUntouched b) (Between := LockKept b)
    (After := fun t => t.mode = .unlocked →
      ∃ k1 k2 : Bool, pollKeys i = some (k1, k2) ∧ t.phase = .run ∧ UnlockNow b k1 k2) i b
    (reset := fun _ => nofun)
    (start := beginCycle_lockUntouched b)
    (onDone := fun _ => done_lockUntouched)
    (noTmr := fun _ h => h.toLockKept)
    (onTmr := fun _ => tmr_lockKept)
    (noPoll := fun _ h unlocked => absurd (locked.symm.trans (h.mode.symm.trans unlocked)) nofun)
    (onPoll := fun k1 k2 reads _ h unlocked => by
      obtain ⟨noStrobe, run, unlock⟩ := poll_unlocks k1 k2 (h.mode.trans locked) unlocked
      exact ⟨k1, k2, reads, run, h.unlockNow noStrobe unlock⟩)

/-! ## A byte no code can equal (R245) -/

/-- In RUN and Locked only a completed attempt equal to the stored byte changes phase, Mode or store. -/
theorem poll_locked_keeps (k1 k2 : Bool) (run : b.phase = .run) (locked : b.mode = .locked)
    (noMatch : b.count.val = 5 → b.nv ≠ accAfter b) :
    (poll k1 k2 b).phase = .run ∧ (poll k1 k2 b).mode = .locked ∧ (poll k1 k2 b).nv = b.nv :=
  have notBoot {x : Prop} (h : b.phase = .boot) : x := absurd (run.symm.trans h) nofun
  have notBypass {x : Prop} (h : b.phase = .bypass) : x := absurd (run.symm.trans h) nofun
  poll_elim (P := fun r => r.phase = .run ∧ r.mode = .locked ∧ r.nv = b.nv) b k1 k2
    (suspended := fun _ => ⟨run, locked, rfl⟩)
    (bootBypass := fun _ hp _ => notBoot hp)
    (bootLocked := fun _ hp _ _ => notBoot hp)
    (bootUnlocked := fun _ hp _ _ => notBoot hp)
    (bypassPress := fun _ hp _ => notBypass hp)
    (bypassRelease := fun _ hp _ => notBypass hp)
    (bypassNone := fun _ hp _ _ => notBypass hp)
    (runPress := fun _ _ _ => ⟨run, locked, rfl⟩)
    (runNone := fun _ _ _ _ => ⟨run, locked, rfl⟩)
    (runEntry := fun _ _ _ _ => ⟨run, locked, rfl⟩)
    (runLock := fun _ _ _ _ hm => absurd (locked.symm.trans hm) nofun)
    (runMatch := fun _ _ _ hn _ hv => absurd hv (noMatch hn))
    (runMismatch := fun _ _ _ _ _ _ => ⟨run, locked, rfl⟩)

/-- A completed attempt carries the marker, which the stored byte lacks. -/
theorem LockKept.noMatch_of_foreign (h : LockKept b r) (noStrobe : r.fb = .none) (hi : Invariants b)
    (foreign : b.nv.extractLsb' 6 2 ≠ c.marker) : r.count.val = 5 → r.nv ≠ accAfter r := by
  intro sixth equal
  obtain ⟨count, -⟩ := h.entry noStrobe
  have equal' : b.nv = accAfter b := by
    rw [← nv_congr h.store, equal, h.accAfter_eq noStrobe]
  exact foreign (equal' ▸ accAfter_topBits hi (count ▸ sixth))

theorem cycleOf_foreign_keeps {i : Instr} (notPor : i ≠ .por) (hi : Invariants b) (run : b.phase = .run)
    (locked : b.mode = .locked) (foreign : b.nv.extractLsb' 6 2 ≠ c.marker) :
    (cycleOf i b).phase = .run ∧ (cycleOf i b).mode = .locked ∧ (cycleOf i b).nv = b.nv := by
  refine cycle_stages (Before := LockUntouched b) (Between := LockKept b)
    (After := fun t => t.phase = .run ∧ t.mode = .locked ∧ t.nv = b.nv) i b
    (reset := fun por => absurd por notPor)
    (start := beginCycle_lockUntouched b)
    (onDone := fun _ => done_lockUntouched)
    (noTmr := fun _ h => h.toLockKept)
    (onTmr := fun _ => tmr_lockKept)
    (noPoll := fun _ h => ⟨h.phase.trans run, h.mode.trans locked, nv_congr h.store⟩)
    (onPoll := fun k1 k2 _ r h => ?onPoll)
  case onPoll =>
    by_cases noStrobe : r.fb = .none
    · obtain ⟨phase, mode, nv⟩ := poll_locked_keeps k1 k2 (h.phase.trans run) (h.mode.trans locked)
        (h.noMatch_of_foreign noStrobe hi foreign)
      exact ⟨phase, mode, nv.trans (nv_congr h.store)⟩
    · rw [poll_suspended noStrobe]
      exact ⟨h.phase.trans run, h.mode.trans locked, nv_congr h.store⟩

/-! ## The obligations -/

/-- Settles O35: a cycle that writes leaves its byte at the one address that exists, any other leaves the
store. -/
theorem memoryReadsAsLastWritten : Obligations.MemoryReadsAsLastWritten := by
  unfold Obligations.MemoryReadsAsLastWritten
  intro c b q i canonical
  obtain ⟨canonical', holds⟩ := cycleOf_storeHoldsWrite i canonical
  refine ⟨_, exec_eq_next i b q, canonical', fun a => ?_⟩
  cases written : (cycleOf i b).out.nvWrite with
  | none => rw [cycleOf_store_of_noWrite i b written]
  | some v =>
    simp only [read_eq, holds v written]
    by_cases h : a = 23
    · simp [h]
    · simp [h]

/-- Settles O36: only entering Unlocked and a code completed in Unlocked write, and the code is marked. -/
theorem savedBytesCarryTheMarker : Obligations.SavedBytesCarryTheMarker := by
  unfold Obligations.SavedBytesCarryTheMarker
  exact fun c b q i inv => ⟨_, exec_eq_next i b q, cycleOf_savedByteOk i inv⟩

/-- Settles O40: Green is only ever followed by Yellow in its cycle, and no procedure commands Off. -/
theorem greenIsNeverLatched : Obligations.GreenIsNeverLatched := by
  unfold Obligations.GreenIsNeverLatched
  exact ⟨nofun, fun c b q i notGreen => ⟨_, exec_eq_next i b q, cycleOf_latchOk i notGreen⟩⟩

/-- Settles O53: only the `POLL` of a cycle unlocks, and what it reads is that of the cycle's start. -/
theorem waysOutOfLocked : Obligations.WaysOutOfLocked := by
  unfold Obligations.WaysOutOfLocked
  intro c b b' q i _ runs locked unlocked
  obtain rfl : cycleOf i b = b' := by
    rw [exec_eq_next] at runs
    injection runs with same
    injection same
  exact cycleOf_unlocks i locked unlocked

/-- Settles O54: I7 makes the block Locked, and no completed attempt equals a byte without the marker. -/
theorem foreignByteKeepsTheBlockLocked : Obligations.ForeignByteKeepsTheBlockLocked := by
  unfold Obligations.ForeignByteKeepsTheBlockLocked
  intro c b q i inv run nonzero foreign notPor
  have locked : b.mode = .locked := by
    cases mode : b.mode with
    | locked => rfl
    | unlocked => exact absurd (inv.invariants.i7 run mode) nonzero
  exact ⟨locked, _, exec_eq_next i b q, cycleOf_foreign_keeps notPor inv.invariants run locked foreign⟩

end Sys2Proof.Machine
end

section
/-! The order of `DONE`, `TMR` and `POLL` (`30_encoding.md` R76, log 16): when two of them commute, within a cycle
and in consecutive cycles, and what the two orders give where they do not. -/

namespace Sys2Proof.Machine

variable {c : Config} {b : Block c} {q : List Stim} {k1 k2 : Bool}

/-! ## A `TMR` that times out, and one that does not -/

/-- At a compare match with the timeout due, `TMR` is `EntryTimeout()` after the count (R124, R125). -/
theorem tmr_timesOut (isMatch : MatchNow b) (due : TimeoutDue b) :
    tmr b = entryTimeout (firedTimer b) :=
  (tmr_match isMatch).trans (wdTick_timesOut (b := firedTimer b) due.1 due.2)

/-- A timeout suspends the polls after it (R161). -/
theorem poll_entryTimeout (k1 k2 : Bool) (b : Block c) : poll k1 k2 (entryTimeout b) = entryTimeout b :=
  poll_suspended (b := entryTimeout b) nofun

/-- A compare match signals the interrupt. -/
theorem tmr_wdIrq_of_match (isMatch : MatchNow b) : (tmr b).out.wdIrq = true := by
  rw [tmr_wdIrq, decide_eq_true isMatch, Bool.true_or]

/-- `TMR` raises `EntryTimedOut` exactly at a compare match with the timeout due. -/
theorem tmr_entryTimedOut_iff (quiet : b.out.entryTimedOut = false) :
    (tmr b).out.entryTimedOut = true ↔ MatchNow b ∧ TimeoutDue b :=
  tmr_elim (P := fun r => r.out.entryTimedOut = true ↔ MatchNow b ∧ TimeoutDue b) b
    (noMatch := fun h => by simp [quiet, h])
    (closed := fun _ hg => by simp [firedTimer, quiet, hg])
    (counts := fun _ _ ht => iff_of_false (by simp [firedTimer, quiet]) fun h => Nat.not_le.mpr ht h.2.2)
    (timesOut := fun h hg ht => iff_of_true rfl ⟨h, hg, ht⟩)

/-- Below a timeout `TMR` leaves the sub-state and the entry but for its ticks. -/
theorem tmr_entry_of_noTimeout (noTimeout : ¬ (MatchNow b ∧ TimeoutDue b)) :
    (tmr b).fb = b.fb ∧ (tmr b).count = b.count ∧ (tmr b).acc = b.acc :=
  tmr_elim (P := fun r => r.fb = b.fb ∧ r.count = b.count ∧ r.acc = b.acc) b
    (noMatch := fun _ => ⟨rfl, rfl, rfl⟩)
    (closed := fun _ _ => ⟨rfl, rfl, rfl⟩)
    (counts := fun _ _ _ => ⟨rfl, rfl, rfl⟩)
    (timesOut := fun h hg ht => absurd ⟨h, hg, ht⟩ noTimeout)

/-- Below a timeout `TMR` leaves an entry that is about to be made, and its digit. -/
theorem entryNow_tmr (noTimeout : ¬ (MatchNow b ∧ TimeoutDue b)) (entry : EntryNow b k1 k2) :
    EntryNow (tmr b) k1 k2 ∧ accAfter (tmr b) = accAfter b :=
  tmr_elim (P := fun r => EntryNow r k1 k2 ∧ accAfter r = accAfter b) b
    (noMatch := fun _ => ⟨entry, rfl⟩)
    (closed := fun _ _ => ⟨entry, rfl⟩)
    (counts := fun _ _ _ => ⟨entry, rfl⟩)
    (timesOut := fun h hg ht => absurd ⟨h, hg, ht⟩ noTimeout)

/-- `TMR` only adds to the indicator commands of the cycle. -/
theorem tmr_indWrites (b : Block c) : ∃ xs, (tmr b).out.indWrites = b.out.indWrites ++ xs :=
  tmr_elim (P := fun r => ∃ xs, r.out.indWrites = b.out.indWrites ++ xs) b
    (noMatch := fun _ => ⟨[], (List.append_nil _).symm⟩)
    (closed := fun _ _ => ⟨[], (List.append_nil _).symm⟩)
    (counts := fun _ _ _ => ⟨[], (List.append_nil _).symm⟩)
    (timesOut := fun _ _ _ => ⟨_, rfl⟩)

/-! ## What a `POLL` decides -/

theorem mode_cases : ∀ m : Mode, m = .unlocked ∨ m = .locked
  | .unlocked => .inl rfl
  | .locked => .inr rfl

/-- A running `POLL` commands the background first (R167). -/
theorem poll_indWrites (noStrobe : b.fb = .none) (run : b.phase = .run) :
    ∃ xs, (poll k1 k2 b).out.indWrites = b.out.indWrites ++ (backgroundWrites b.mode ++ xs) := by
  by_cases press : PressNow b k1 k2
  · rw [poll_run_press noStrobe run press]; exact ⟨_, rfl⟩
  by_cases release : ReleaseNow b k1 k2
  swap
  · rw [poll_run_none noStrobe run press release]; exact ⟨[], by simp⟩
  rcases Nat.lt_or_ge b.count.val 5 with below | sixth
  · rw [poll_run_entry noStrobe run release below]; exact ⟨[], by simp⟩
  have sixth : b.count.val = 5 := by omega
  cases mode : b.mode with
  | unlocked => rw [poll_run_lock noStrobe run release sixth mode]; exact ⟨[], rfl⟩
  | locked =>
    by_cases equal : b.nv = accAfter b
    · rw [poll_run_match noStrobe run release sixth mode equal]; exact ⟨[], rfl⟩
    · rw [poll_run_mismatch noStrobe run release sixth mode equal]; exact ⟨[.yellowStrobeWithRed], rfl⟩

/-- A `POLL` confirms a release and leaves the gate open exactly at an entry that completes no code (R169). -/
theorem poll_entry_iff (quiet : b.out.releaseConfirmed = false) :
    (poll k1 k2 b).gate = true ∧ (poll k1 k2 b).out.releaseConfirmed = true ↔ EntryNow b k1 k2 := by
  refine poll_elim (P := fun r => r.gate = true ∧ r.out.releaseConfirmed = true ↔ EntryNow b k1 k2) b k1 k2
    (suspended := fun hf => by simp [quiet, hf])
    (bootBypass := fun _ hp _ => by simp [quiet, hp])
    (bootLocked := fun _ hp _ _ => by simp [hp])
    (bootUnlocked := fun _ hp _ _ => by simp [hp])
    (bypassPress := fun _ hp _ => by simp [quiet, hp])
    (bypassRelease := fun _ hp _ => by simp [hp])
    (bypassNone := fun _ hp _ _ => by simp [quiet, hp])
    (runPress := fun _ _ press => ?runPress)
    (runNone := fun _ _ _ noRelease => ?runNone)
    (runEntry := fun hf hp h hn => iff_of_true ⟨rfl, rfl⟩ ⟨hf, hp, h, hn⟩)
    (runLock := fun _ _ _ hn _ => by simp [hn])
    (runMatch := fun _ _ _ hn _ _ => by simp [hn])
    (runMismatch := fun _ _ _ hn _ _ => by simp [hn])
  case runPress => simp [quiet, EntryNow, not_release_of_press press]
  case runNone => simp [quiet, EntryNow, noRelease]

/-- Without an entry a closed gate stays closed. -/
theorem poll_gate_of_closed (closed : b.gate = false) (noEntry : ¬ EntryNow b k1 k2) :
    (poll k1 k2 b).gate = false :=
  poll_elim (P := fun r => r.gate = false) b k1 k2
    (suspended := fun _ => closed)
    (bootBypass := fun _ _ _ => closed)
    (bootLocked := fun _ _ _ _ => rfl)
    (bootUnlocked := fun _ _ _ _ => rfl)
    (bypassPress := fun _ _ _ => closed)
    (bypassRelease := fun _ _ _ => rfl)
    (bypassNone := fun _ _ _ _ => closed)
    (runPress := fun _ _ _ => closed)
    (runNone := fun _ _ _ _ => closed)
    (runEntry := fun hf hp h hn => absurd ⟨hf, hp, h, hn⟩ noEntry)
    (runLock := fun _ _ _ _ _ => rfl)
    (runMatch := fun _ _ _ _ _ _ => rfl)
    (runMismatch := fun _ _ _ _ _ _ => rfl)

/-- A `POLL` begins a strobe exactly at a mismatch (R173). -/
theorem poll_strobe_iff (noStrobe : b.fb = .none) :
    (poll k1 k2 b).fb ≠ .none ↔ MismatchNow b k1 k2 := by
  refine poll_elim (P := fun r => r.fb ≠ .none ↔ MismatchNow b k1 k2) b k1 k2
    (suspended := fun strobe => absurd noStrobe strobe)
    (bootBypass := fun _ hp _ => by simp [noStrobe, hp])
    (bootLocked := fun _ hp _ _ => by simp [noStrobe, hp])
    (bootUnlocked := fun _ hp _ _ => by simp [noStrobe, hp])
    (bypassPress := fun _ hp _ => by simp [noStrobe, hp])
    (bypassRelease := fun _ hp _ => by simp [noStrobe, hp])
    (bypassNone := fun _ hp _ _ => by simp [noStrobe, hp])
    (runPress := fun _ _ press => ?runPress)
    (runNone := fun _ _ _ noRelease => ?runNone)
    (runEntry := fun _ _ _ hn => ?runEntry)
    (runLock := fun _ _ _ _ hm => ?runLock)
    (runMatch := fun _ _ _ _ _ hv => ?runMatch)
    (runMismatch := fun hf hp h hn hm hv => iff_of_true nofun ⟨hf, hp, hm, h, hn, hv⟩)
  case runPress => simp [noStrobe, MismatchNow, not_release_of_press press]
  case runNone => simp [noStrobe, MismatchNow, noRelease]
  case runEntry => simp [noStrobe, hn.ne]
  case runLock => simp [noStrobe, hm]
  case runMatch => simp [noStrobe, hv]

/-! ## `DONE` and `TMR` -/

/-- `DONE` on the registered `fb` commutes with `TMR`: with a strobe outstanding the gate is closed (R42 I1), so
the `TMR` only counts. -/
theorem tmr_done (closed : b.fb ≠ .none → b.gate = false) : tmr (done b) = doneOn b.fb (tmr b) := by
  by_cases strobe : b.fb = .none
  · rw [done_of_none strobe, strobe, doneOn_none]
  · rw [done_of_strobe strobe, doneOn_of_strobe strobe]
    by_cases isMatch : MatchNow b
    · rw [tmr_match (b := { b with fb := .none }) isMatch, tmr_match isMatch,
        wdTick_closed (b := firedTimer b) (closed strobe)]
      exact wdTick_closed (closed strobe)
    · rw [tmr_noMatch (b := { b with fb := .none }) isMatch, tmr_noMatch isMatch]

theorem gate_closed_of_strobe (hi : Invariants b) (strobe : b.fb ≠ .none) : b.gate = false := by
  obtain ⟨-, closed, -⟩ := hi.i1 strobe
  exact closed

/-- Unless the `TMR` times out, the `fb` it leaves is the registered one. -/
theorem tmr_done_comm (hi : Invariants b) (noTimeout : ¬ (MatchNow b ∧ TimeoutDue b)) :
    tmr (done b) = done (tmr b) := by
  obtain ⟨sameFb, -⟩ := tmr_entry_of_noTimeout noTimeout
  rw [tmr_done (gate_closed_of_strobe hi), ← sameFb, done]

/-! ## `TMR` and `POLL` -/

/-- A running `POLL` that confirms no release neither reads nor writes the gate and the ticks. -/
theorem poll_setTicks (noStrobe : b.fb = .none) (run : b.phase = .run) (noRelease : ¬ ReleaseNow b k1 k2)
    (t : Byte) : poll k1 k2 { b with ticks := t } = { poll k1 k2 b with ticks := t } ∧
      (poll k1 k2 b).gate = b.gate ∧ (poll k1 k2 b).ticks = b.ticks := by
  by_cases press : PressNow b k1 k2
  · rw [poll_run_press (b := { b with ticks := t }) noStrobe run press, poll_run_press noStrobe run press]
    exact ⟨rfl, rfl, rfl⟩
  · rw [poll_run_none (b := { b with ticks := t }) noStrobe run press noRelease,
      poll_run_none noStrobe run press noRelease]
    exact ⟨rfl, rfl, rfl⟩

/-- A completion clears the gate and the ticks, whatever they were (R170, R171, R173). -/
theorem poll_setTicks_of_sixth (noStrobe : b.fb = .none) (run : b.phase = .run)
    (release : ReleaseNow b k1 k2) (sixth : b.count.val = 5) (t : Byte) :
    poll k1 k2 { b with ticks := t } = poll k1 k2 b ∧ (poll k1 k2 b).gate = false := by
  rcases mode_cases b.mode with mode | mode
  · rw [poll_run_lock (b := { b with ticks := t }) noStrobe run release sixth mode,
      poll_run_lock noStrobe run release sixth mode]
    exact ⟨rfl, rfl⟩
  by_cases equal : b.nv = accAfter b
  · rw [poll_run_match (b := { b with ticks := t }) noStrobe run release sixth mode equal,
      poll_run_match noStrobe run release sixth mode equal]
    exact ⟨rfl, rfl⟩
  · rw [poll_run_mismatch (b := { b with ticks := t }) noStrobe run release sixth mode equal,
      poll_run_mismatch noStrobe run release sixth mode equal]
    exact ⟨rfl, rfl⟩

/-- Without an entry and short of a timeout the tick and the `POLL` commute: only a completion touches the count,
and it clears it in either order. -/
theorem poll_wdTick_comm (opened : b.gate = true → b.phase = .run ∧ b.fb = .none)
    (noTimeout : ¬ TimeoutDue b) (noEntry : ¬ EntryNow b k1 k2) :
    poll k1 k2 (wdTick b) = wdTick (poll k1 k2 b) := by
  cases gate : b.gate with
  | false => rw [wdTick_closed gate, wdTick_closed (poll_gate_of_closed gate noEntry)]
  | true =>
    obtain ⟨run, noStrobe⟩ := opened gate
    have below : (b.ticks + 1#8).toNat < c.timeoutTicks := Nat.lt_of_not_le fun h => noTimeout ⟨gate, h⟩
    rw [wdTick_counts gate below]
    by_cases release : ReleaseNow b k1 k2
    · have sixth : b.count.val = 5 := by
        by_contra
        exact noEntry ⟨noStrobe, run, release, by omega⟩
      obtain ⟨same, cleared⟩ := poll_setTicks_of_sixth noStrobe run release sixth (b.ticks + 1#8)
      rw [same, wdTick_closed cleared]
    · obtain ⟨same, keptGate, keptTicks⟩ := poll_setTicks noStrobe run release (b.ticks + 1#8)
      rw [same, wdTick_counts (keptGate.trans gate) (keptTicks ▸ below), keptTicks]

/-- A `POLL` leaves the distance of the coming `TMR` to its match. -/
theorem matchNow_poll (k1 k2 : Bool) (b : Block c) : MatchNow (poll k1 k2 b) ↔ MatchNow b := by
  obtain ⟨tcnt, tcmp, -, -⟩ := poll_frame k1 k2 b
  rw [MatchNow, MatchNow, tcnt, tcmp]

/-- A `POLL` commutes with the count of a `TMR` that does not match. -/
theorem poll_tmr_noMatch (noMatch : ¬ MatchNow b) : poll k1 k2 (tmr b) = tmr (poll k1 k2 b) := by
  obtain ⟨tcnt, tcmp, irq, -⟩ := poll_frame k1 k2 b
  have counted : setTimer (b.tcnt + 1#c.timerWidth) b.tcmp b.out.wdIrq b = tmr b :=
    (tmr_noMatch noMatch).symm
  rw [← counted, poll_setTimer, tmr_noMatch (mt (matchNow_poll k1 k2 b).mp noMatch)]
  simp only [setTimer, ← tcnt, ← tcmp, ← irq]

/-- A `POLL` commutes with the count of a `TMR` that matches, up to its tick. -/
theorem poll_firedTimer (k1 k2 : Bool) (b : Block c) :
    poll k1 k2 (firedTimer b) = firedTimer (poll k1 k2 b) := by
  obtain ⟨tcnt, tcmp, -, -⟩ := poll_frame k1 k2 b
  have fired : setTimer (b.tcnt + 1#c.timerWidth) (b.tcmp + BitVec.ofNat c.timerWidth c.timerStep) true b =
    firedTimer b := rfl
  rw [← fired, poll_setTimer]
  simp only [setTimer, firedTimer, tcnt, tcmp]

/-- `TMR` and `POLL` commute but at a compare match that times out or meets an entry. -/
theorem poll_tmr_comm (hi : Invariants b)
    (apart : ¬ (MatchNow b ∧ (TimeoutDue b ∨ EntryNow b k1 k2))) :
    poll k1 k2 (tmr b) = tmr (poll k1 k2 b) := by
  by_cases isMatch : MatchNow b
  swap
  · exact poll_tmr_noMatch isMatch
  have opened : b.gate = true → b.phase = .run ∧ b.fb = .none := phase_of_gate hi
  have noTimeout : ¬ TimeoutDue b := fun due => apart ⟨isMatch, .inl due⟩
  have noEntry : ¬ EntryNow b k1 k2 := fun entry => apart ⟨isMatch, .inr entry⟩
  calc poll k1 k2 (tmr b)
      = poll k1 k2 (wdTick (firedTimer b)) := by rw [tmr_match isMatch]
    _ = wdTick (poll k1 k2 (firedTimer b)) :=
        poll_wdTick_comm (b := firedTimer b) opened noTimeout noEntry
    _ = wdTick (firedTimer (poll k1 k2 b)) := by rw [poll_firedTimer]
    _ = tmr (poll k1 k2 b) := (tmr_match ((matchNow_poll k1 k2 b).mpr isMatch)).symm

/-- A timeout suspends the `POLL` after it, and a `POLL` before it shows the background. -/
theorem poll_tmr_ne_of_timeout (hi : Invariants b) (quiet : b.out.indWrites = []) (isMatch : MatchNow b)
    (due : TimeoutDue b) : poll k1 k2 (tmr b) ≠ tmr (poll k1 k2 b) := by
  obtain ⟨run, noStrobe⟩ := phase_of_gate hi due.1
  have suspended : (poll k1 k2 (tmr b)).out.indWrites = [.yellowStrobeNoRed] := by
    rw [tmr_timesOut isMatch due, poll_entryTimeout]
    exact congrArg (· ++ [VisualState.yellowStrobeNoRed]) quiet
  obtain ⟨xs, shown⟩ := poll_indWrites (k1 := k1) (k2 := k2) noStrobe run
  obtain ⟨ys, added⟩ := tmr_indWrites (poll k1 k2 b)
  intro same
  rw [same, added, shown, quiet] at suspended
  cases mode : b.mode with
  | unlocked => simp [mode, backgroundWrites] at suspended
  | locked => simp [mode, backgroundWrites] at suspended

/-- The tick of a compare match over an entry just made counts to 1, or times out. -/
theorem tmr_of_justEntered (isMatch : MatchNow b) (gate : b.gate = true) (ticks : b.ticks = 0#8) :
    (tmr b).fb = .timeoutAbort ∨ (tmr b).ticks = 1#8 :=
  tmr_elim (P := fun r => r.fb = .timeoutAbort ∨ r.ticks = 1#8) b
    (noMatch := fun noMatch => absurd isMatch noMatch)
    (closed := fun _ closed => absurd (gate.symm.trans closed) nofun)
    (counts := fun _ _ _ => .inr (by simp [ticks]))
    (timesOut := fun _ _ _ => .inl rfl)

/-- An entry leaves the count at 0 and no strobe, and a tick after it does not. -/
theorem poll_tmr_ne_of_entry (isMatch : MatchNow b) (noTimeout : ¬ TimeoutDue b)
    (entry : EntryNow b k1 k2) : poll k1 k2 (tmr b) ≠ tmr (poll k1 k2 b) := by
  obtain ⟨⟨noStrobe', run', release', below'⟩, -⟩ := entryNow_tmr (fun h => noTimeout h.2) entry
  obtain ⟨noStrobe, run, release, below⟩ := entry
  have first := poll_run_entry noStrobe' run' release' below'
  have second := tmr_of_justEntered (b := poll k1 k2 b) ((matchNow_poll k1 k2 b).mpr isMatch)
    (by rw [poll_run_entry noStrobe run release below])
    (by rw [poll_run_entry noStrobe run release below])
  intro same
  rw [← same, first] at second
  rcases second with strobe | counted
  · exact absurd (noStrobe'.symm.trans strobe) nofun
  · exact absurd counted (by simp)

/-- The two orders of `TMR` and `POLL` differ exactly at a compare match that times out or meets an entry. -/
theorem poll_tmr_ne_iff (hi : Invariants b) (quiet : b.out.indWrites = []) :
    poll k1 k2 (tmr b) ≠ tmr (poll k1 k2 b) ↔ MatchNow b ∧ (TimeoutDue b ∨ EntryNow b k1 k2) := by
  constructor
  · intro differ
    by_contra apart
    exact differ (poll_tmr_comm hi apart)
  · rintro ⟨isMatch, h⟩
    by_cases due : TimeoutDue b
    · exact poll_tmr_ne_of_timeout hi quiet isMatch due
    · exact poll_tmr_ne_of_entry isMatch due (h.resolve_left due)

/-! ## `DONE` and `POLL` -/

/-- The two orders of `DONE` and `POLL` differ exactly when a strobe is outstanding or the `POLL` begins one. -/
theorem poll_done_ne_iff (hi : Invariants b) :
    poll k1 k2 (done b) ≠ done (poll k1 k2 b) ↔ b.fb ≠ .none ∨ MismatchNow b k1 k2 := by
  by_cases strobe : b.fb = .none
  · have ends : poll k1 k2 b ≠ done (poll k1 k2 b) ↔ (poll k1 k2 b).fb ≠ .none := by
      refine not_congr ⟨fun same => ?_, fun none => (done_of_none none).symm⟩
      rw [same, done_eq]
    rw [done_of_none strobe, ends, poll_strobe_iff strobe]
    simp [strobe]
  · obtain ⟨run, -⟩ := hi.i1 strobe
    refine iff_of_true (fun same => ?_) (.inl strobe)
    obtain ⟨xs, shown⟩ := poll_indWrites (b := { b with fb := .none }) (k1 := k1) (k2 := k2) rfl run
    rw [poll_suspended strobe, done_eq] at same
    rw [same] at shown
    cases mode : b.mode with
    | unlocked => simp [mode, backgroundWrites] at shown
    | locked => simp [mode, backgroundWrites] at shown

/-! ## The tick of a `TMR` under the `POLL` after it -/

/-- A running `POLL` clears a count of ticks exactly when it confirms a release. -/
theorem poll_ticks_iff (noStrobe : b.fb = .none) (run : b.phase = .run) (counted : b.ticks ≠ 0#8)
    (quiet : b.out.releaseConfirmed = false) :
    (poll k1 k2 b).ticks ≠ b.ticks ↔ (poll k1 k2 b).out.releaseConfirmed = true := by
  have notBoot {x : Prop} (h : b.phase = .boot) : x := absurd (run.symm.trans h) nofun
  have notBypass {x : Prop} (h : b.phase = .bypass) : x := absurd (run.symm.trans h) nofun
  have cleared : 0#8 ≠ b.ticks := counted.symm
  exact poll_elim (P := fun r => r.ticks ≠ b.ticks ↔ r.out.releaseConfirmed = true) b k1 k2
    (suspended := fun strobe => absurd noStrobe strobe)
    (bootBypass := fun _ hp _ => notBoot hp)
    (bootLocked := fun _ hp _ _ => notBoot hp)
    (bootUnlocked := fun _ hp _ _ => notBoot hp)
    (bypassPress := fun _ hp _ => notBypass hp)
    (bypassRelease := fun _ hp _ => notBypass hp)
    (bypassNone := fun _ hp _ _ => notBypass hp)
    (runPress := fun _ _ _ => by simp [quiet])
    (runNone := fun _ _ _ _ => by simp [quiet])
    (runEntry := fun _ _ _ _ => iff_of_true cleared rfl)
    (runLock := fun _ _ _ _ _ => iff_of_true cleared rfl)
    (runMatch := fun _ _ _ _ _ _ => iff_of_true cleared rfl)
    (runMismatch := fun _ _ _ _ _ _ => iff_of_true cleared rfl)

/-- A tick below the threshold is a count the `POLL` after it can clear. -/
theorem ticks_succ_ne (hc : c.wf = true) (hi : Invariants b) :
    b.ticks + 1#8 ≠ 0#8 ∧ b.ticks + 1#8 ≠ b.ticks := by
  have counted : (b.ticks + 1#8).toNat = b.ticks.toNat + 1 := ticks_succ hc hi.i4.1
  constructor
  · intro h
    rw [h] at counted
    simp at counted
  · intro h
    rw [h] at counted
    omega

/-- A suspended `POLL` in a cycle of its own only ends the outputs. -/
theorem registers_poll_of_strobe (strobe : b.fb ≠ .none) :
    registers (poll k1 k2 (beginCycle b)) = registers b := by
  rw [poll_suspended (b := beginCycle b) strobe]
  rfl

/-- R76's set in the order of a cycle, for a `TMR` that takes `b` to `t` and the `POLL` of the next cycle: the `POLL`
overwrites what the tick wrote, or the `TMR` changes `fb` and so suspends it. -/
def TickMeetsPoll (k1 k2 : Bool) (b t : Block c) : Prop :=
  (((t.ticks ≠ b.ticks ∧ (poll k1 k2 (beginCycle t)).ticks ≠ t.ticks) ∨ t.fb ≠ b.fb) ↔
      (MatchNow b ∧ b.gate = true ∧ (poll k1 k2 (beginCycle t)).out.releaseConfirmed = true) ∨
        t.out.entryTimedOut = true) ∧
    (t.fb ≠ b.fb → registers (poll k1 k2 (beginCycle t)) = registers t)

theorem tmr_tickMeetsPoll (inv : Inv ⟨c, b, q⟩) (quiet : b.out = Outputs.quiet) :
    TickMeetsPoll k1 k2 b (tmr b) := by
  have hi : Invariants b := inv.invariants
  refine tmr_elim (P := TickMeetsPoll k1 k2 b) b
    (noMatch := fun noMatch => ⟨?noMatch, fun h => absurd rfl h⟩)
    (closed := fun _ closed => ⟨?closed, fun h => absurd rfl h⟩)
    (counts := fun isMatch gate below => ⟨?counts, fun h => absurd rfl h⟩)
    (timesOut := fun _ gate _ => ⟨?timesOut, fun _ => ?suspended⟩)
  case noMatch => simp [noMatch, quiet, Outputs.quiet]
  case closed => simp [firedTimer, closed, quiet, Outputs.quiet]
  case counts =>
    obtain ⟨run, noStrobe⟩ := phase_of_gate hi gate
    obtain ⟨counted, changed⟩ := ticks_succ_ne inv.cfgWf hi
    have cleared := poll_ticks_iff (k1 := k1) (k2 := k2)
      (b := beginCycle { firedTimer b with ticks := b.ticks + 1#8 }) noStrobe run counted rfl
    simp only [beginCycle_ticks] at cleared
    rw [cleared]
    simp [MatchNow, firedTimer, isMatch, gate, quiet, Outputs.quiet]
  case timesOut =>
    obtain ⟨-, noStrobe⟩ := phase_of_gate hi gate
    simp [noStrobe]
  case suspended =>
    exact registers_poll_of_strobe (b := entryTimeout (firedTimer b)) nofun

/-! ## An entry at a compare match -/

/-- The timer first, its timeout due: the entry is given up and the `POLL` of the next cycle suspended. -/
theorem poll_after_timeout (isMatch : MatchNow b) (due : TimeoutDue b) :
    poll k1 k2 (beginCycle (tmr b)) = beginCycle (entryTimeout (firedTimer b)) := by
  rw [tmr_timesOut isMatch due]
  exact poll_suspended (b := beginCycle (entryTimeout (firedTimer b))) nofun

/-- The block after an entry that completes no code (R169). -/
structure Entered (b r : Block c) : Prop where
  noStrobe : r.fb = .none
  count : r.count.val = b.count.val + 1
  acc : r.acc = accAfter b
  gate : r.gate = true
  ticks : r.ticks = 0#8
  raised : r.out.releaseConfirmed = true

theorem poll_entered (entry : EntryNow b k1 k2) : Entered b (poll k1 k2 b) := by
  obtain ⟨noStrobe, run, release, below⟩ := entry
  have counted : (b.count + 1).val = b.count.val + 1 := Fin.val_add_one_of_lt below
  rw [poll_run_entry noStrobe run release below]
  exact ⟨noStrobe, counted, rfl, rfl, rfl, rfl⟩

/-- The timer first, short of its timeout: the entry is made as without it. -/
theorem entered_after_tmr (noTimeout : ¬ TimeoutDue b) (entry : EntryNow b k1 k2) :
    Entered b (poll k1 k2 (beginCycle (tmr b))) := by
  have noTimeout' : ¬ (MatchNow b ∧ TimeoutDue b) := fun h => noTimeout h.2
  obtain ⟨entry', acc⟩ := entryNow_tmr noTimeout' entry
  obtain ⟨-, count, -⟩ := tmr_entry_of_noTimeout noTimeout'
  have entered := poll_entered (b := beginCycle (tmr b)) entry'
  exact { entered with count := count ▸ entered.count, acc := entered.acc.trans acc }

/-- The tick over an entry just made times it out exactly if one tick is the threshold. -/
theorem timeoutDue_of_entered {r : Block c} (h : Entered b r) :
    TimeoutDue (beginCycle r) ↔ c.timeoutTicks ≤ 1 := by
  simp [TimeoutDue, h.gate, h.ticks]

/-- The tick over an entry just made, below the threshold, counts to 1 and leaves the entry. -/
theorem tmr_of_entered {r : Block c} (h : Entered b r) (isMatch : MatchNow r)
    (more : 1 < c.timeoutTicks) : tmr (beginCycle r) = { firedTimer (beginCycle r) with ticks := 1#8 } := by
  have below : ((firedTimer (beginCycle r)).ticks + 1#8).toNat < c.timeoutTicks := by
    simpa [firedTimer, h.ticks] using more
  rw [tmr_match (b := beginCycle r) isMatch, wdTick_counts (b := firedTimer (beginCycle r)) h.gate below]
  simp [firedTimer, h.ticks]

/-! ## The obligations -/

/-- Settles O11: `DONE` acts on the `fb` of the cycle's start, in `TMR`'s place as before it. -/
theorem doneAndTmrCommuteWithinACycle : Obligations.DoneAndTmrCommuteWithinACycle := by
  unfold Obligations.DoneAndTmrCommuteWithinACycle
  intro c b q k1 k2 inv
  have comm : tmr (done (beginCycle b)) = doneOn b.fb (tmr (beginCycle b)) :=
    tmr_done (gate_closed_of_strobe (beginCycle_keeps_inv inv).invariants)
  exact ⟨exec_eq_of comm, exec_eq_of (congrArg (poll k1 k2) comm)⟩

/-- Settles O12: short of a timeout the two cycles commute as the micro-operations do; a timeout is ended by a
`DONE` after it alone. -/
theorem doneAndTmrCommuteUnlessItTimesOut : Obligations.DoneAndTmrCommuteUnlessItTimesOut := by
  unfold Obligations.DoneAndTmrCommuteUnlessItTimesOut
  intro c b q inv
  have hi : Invariants (beginCycle b) := (beginCycle_keeps_inv inv).invariants
  have timesOut := tmr_entryTimedOut_iff (b := beginCycle b) rfl
  refine ⟨_, _, _, _, exec_eq_next .done b q, exec_eq_next .tmr _ q, exec_eq_next .tmr b q,
    exec_eq_next .done _ q, fun noTimeout => ?commutes, fun timeout => ?timeout⟩
  case commutes =>
    have comm := tmr_done_comm hi fun h => Bool.noConfusion (noTimeout.symm.trans (timesOut.mpr h))
    rw [addsCycle_done.second addsCycle_tmr, addsCycle_tmr.second addsCycle_done] at comm
    have same := congrArg registers comm
    exact same
  case timeout =>
    obtain ⟨isMatch, due⟩ := timesOut.mp timeout
    obtain ⟨-, noStrobe⟩ := phase_of_gate hi due.1
    have doneFirst : cycleOf .done b = beginCycle b := done_of_none noStrobe
    have tmrLast : cycleOf .tmr (cycleOf .done b) = entryTimeout (firedTimer (beginCycle b)) := by
      rw [doneFirst]
      exact tmr_timesOut isMatch due
    exact ⟨congrArg Block.fb tmrLast, congrArg Block.fb done_eq⟩

/-- Settles O13: a strobe outstanding is ended before the `POLL` or after it was suspended, and a strobe the
`POLL` begins is ended by a `DONE` after it alone. -/
theorem doneBeforePollMattersExactlyHere : Obligations.DoneBeforePollMattersExactlyHere := by
  unfold Obligations.DoneBeforePollMattersExactlyHere
  intro c b q k1 k2 inv
  have differ := poll_done_ne_iff (k1 := k1) (k2 := k2) (beginCycle_keeps_inv inv).invariants
  rw [addsCycle_done.second (addsCycle_poll k1 k2), (addsCycle_poll k1 k2).second addsCycle_done] at differ
  exact ⟨_, _, _, _, exec_eq_next .done b q, exec_eq_next (.poll k1 k2) _ q,
    exec_eq_next (.poll k1 k2) b q, exec_eq_next .done _ q, differ⟩

/-- The two orders of `TMR` and `POLL` in consecutive cycles, their outputs united, on the state before both. -/
theorem tmr_poll_cycles_ne_iff (inv : Inv ⟨c, b, q⟩) :
    unite (cycleOf .tmr b) (cycleOf (.poll k1 k2) (cycleOf .tmr b)) ≠
        unite (cycleOf (.poll k1 k2) b) (cycleOf .tmr (cycleOf (.poll k1 k2) b)) ↔
      MatchNow b ∧ (TimeoutDue b ∨ EntryNow b k1 k2) := by
  rw [← addsCycle_tmr.second (addsCycle_poll k1 k2), ← (addsCycle_poll k1 k2).second addsCycle_tmr]
  exact poll_tmr_ne_iff (beginCycle_keeps_inv inv).invariants rfl

/-- Settles O14: a timeout suspends a `POLL` after it, and an entry restarts the count of a tick before it. -/
theorem tmrBeforePollMattersExactlyHere : Obligations.TmrBeforePollMattersExactlyHere := by
  unfold Obligations.TmrBeforePollMattersExactlyHere
  exact fun c b q k1 k2 inv => ⟨_, _, _, _, exec_eq_next .tmr b q, exec_eq_next (.poll k1 k2) _ q,
    exec_eq_next (.poll k1 k2) b q, exec_eq_next .tmr _ q, tmr_poll_cycles_ne_iff inv⟩

/-- Settles O15: of the four ways of a `TMR`, a counted tick is cleared by a release alone, and a timeout is the
one that changes `fb`. -/
theorem tickOfTheTmrMeetsThePollExactlyHere : Obligations.TickOfTheTmrMeetsThePollExactlyHere := by
  unfold Obligations.TickOfTheTmrMeetsThePollExactlyHere
  exact fun c b q k1 k2 inv => ⟨_, _, exec_eq_next .tmr b q, exec_eq_next (.poll k1 k2) _ q,
    tmr_tickMeetsPoll (beginCycle_keeps_inv inv) rfl⟩

/-- Settles O16: the gate open after a `POLL` that confirms a release says that it made an entry, and
`EntryTimedOut` that the timeout was due. -/
theorem tmrAndPollOrdersDifferExactlyInTheSetOfR76 :
    Obligations.TmrAndPollOrdersDifferExactlyInTheSetOfR76 := by
  unfold Obligations.TmrAndPollOrdersDifferExactlyInTheSetOfR76
  intro c b q k1 k2 inv
  have entry : (cycleOf (.poll k1 k2) b).gate = true ∧
      (cycleOf (.poll k1 k2) b).out.releaseConfirmed = true ↔ EntryNow b k1 k2 :=
    poll_entry_iff (b := beginCycle b) rfl
  have timeout : (cycleOf .tmr b).out.entryTimedOut = true ↔ MatchNow b ∧ TimeoutDue b :=
    tmr_entryTimedOut_iff (b := beginCycle b) rfl
  refine ⟨_, _, _, _, exec_eq_next .tmr b q, exec_eq_next (.poll k1 k2) _ q,
    exec_eq_next (.poll k1 k2) b q, exec_eq_next .tmr _ q, (tmr_poll_cycles_ne_iff inv).trans ?_⟩
  rw [entry, timeout, ← and_or_left, or_comm]

/-- Settles O17: the timer first counts below the entry or times it out; the entry first is one the tick counts
for or, at a threshold of one, times out. -/
theorem tickAndReleaseInBothOrders : Obligations.TickAndReleaseInBothOrders := by
  unfold Obligations.TickAndReleaseInBothOrders
  intro c b q k1 k2 inv isMatch entry
  have entered : Entered (beginCycle b) (cycleOf (.poll k1 k2) b) := poll_entered entry
  have isMatch' : MatchNow (cycleOf (.poll k1 k2) b) := (matchNow_poll k1 k2 (beginCycle b)).mpr isMatch
  have timeout := tmr_entryTimedOut_iff (b := beginCycle b) rfl
  have timeout' := tmr_entryTimedOut_iff (b := beginCycle (cycleOf (.poll k1 k2) b)) rfl
  refine ⟨_, _, _, _, exec_eq_next .tmr b q, exec_eq_next (.poll k1 k2) _ q,
    exec_eq_next (.poll k1 k2) b q, exec_eq_next .tmr _ q, tmr_wdIrq_of_match isMatch,
    entered.raised, tmr_wdIrq_of_match isMatch',
    fun due => ?timesOut, fun notDue => ?counts, fun one => ?timesOut', fun more => ?counts'⟩
  case timesOut =>
    have suspended : cycleOf (.poll k1 k2) (cycleOf .tmr b) =
      beginCycle (entryTimeout (firedTimer (beginCycle b))) := poll_after_timeout isMatch due
    refine ⟨timeout.mpr ⟨isMatch, due⟩, ?_⟩
    rw [suspended]
    obtain ⟨-, -, ⟨-, pressed⟩, -⟩ := entry
    exact ⟨rfl, rfl, rfl, rfl, pressed, rfl⟩
  case counts =>
    have late : Entered (beginCycle b) (cycleOf (.poll k1 k2) (cycleOf .tmr b)) :=
      entered_after_tmr notDue entry
    exact ⟨Bool.eq_false_iff.mpr fun h => notDue (timeout.mp h).2, late.noStrobe, late.count, late.acc,
      late.gate, late.ticks, late.raised⟩
  case timesOut' =>
    have due : TimeoutDue (beginCycle (cycleOf (.poll k1 k2) b)) :=
      (timeoutDue_of_entered entered).mpr one.le
    have timesOut : cycleOf .tmr (cycleOf (.poll k1 k2) b) =
      entryTimeout (firedTimer (beginCycle (cycleOf (.poll k1 k2) b))) := tmr_timesOut isMatch' due
    refine ⟨timeout'.mpr ⟨isMatch', due⟩, ?_⟩
    rw [timesOut]
    exact ⟨rfl, rfl, rfl⟩
  case counts' =>
    have counted : cycleOf .tmr (cycleOf (.poll k1 k2) b) =
      { firedTimer (beginCycle (cycleOf (.poll k1 k2) b)) with ticks := 1#8 } :=
      tmr_of_entered entered isMatch' more
    rw [counted]
    exact ⟨rfl, entered.noStrobe, entered.count, entered.acc, entered.gate, rfl⟩

/-- Settles O24: the branch of RUN without an event. -/
theorem quietRunPollShowsBackground : Obligations.QuietRunPollShowsBackground := by
  unfold Obligations.QuietRunPollShowsBackground
  intro c b q k1 k2 run noStrobe noPress noRelease
  exact exec_poll_of (poll_run_none noStrobe run noPress noRelease) q

/-- Settles O32: the `TMR` comes first, and its timeout suspends the `POLL` of its cycle. -/
theorem timeoutWinsOverPoll : Obligations.TimeoutWinsOverPoll := by
  unfold Obligations.TimeoutWinsOverPoll
  intro c b q k1 k2 isMatch gate reached
  have timesOut := tmr_timesOut (b := beginCycle b) isMatch ⟨gate, reached⟩
  exact exec_eq_of ((congrArg (poll k1 k2) timesOut).trans (poll_entryTimeout k1 k2 _))

end Sys2Proof.Machine
end

section
/-! The sequencer and its outputs: the transition table (`43_lock_fsm.md` R176) row by row, and that a `POLL` which
completes no code does not tell the key (`70_reset_and_hazards.md` R250). -/

namespace Sys2Proof.Machine

variable {c : Config} {b : Block c} {q : List Stim} {k1 k2 : Bool}

/-! ## The rows of `TMR` -/

/-- The condition of the table's `TMR` row. -/
abbrev TableTimeout (b : Block c) : Prop :=
  b.gate = true ∧ MatchNow b ∧ c.timeoutTicks ≤ b.ticks.toNat + 1

theorem sequencerTable_tmr_stays (h : ¬ TableTimeout b) : sequencerTable b .tmr = sequencer b := by
  cases phase : b.phase with
  | boot => simp [sequencerTable, sequencer, phase]
  | bypass => simp [sequencerTable, sequencer, phase]
  | run =>
    cases strobe : b.fb with
    | none => simp only [sequencerTable, sequencer, phase, strobe, if_neg h]
    | timeoutAbort => simp [sequencerTable, sequencer, phase, strobe]
    | errorFeedback => simp [sequencerTable, sequencer, phase, strobe]

theorem sequencerTable_tmr_timeout (run : b.phase = .run) (noStrobe : b.fb = .none) (h : TableTimeout b) :
    sequencerTable b .tmr = (.run, b.mode, .timeoutAbort) := by
  simp only [sequencerTable, sequencer, run, noStrobe, if_pos h]

theorem sequencer_tmr (hc : c.wf = true) (hi : Invariants b) :
    sequencer (tmr b) = sequencerTable b .tmr := by
  have counted : (b.ticks + 1#8).toNat = b.ticks.toNat + 1 := ticks_succ hc hi.i4.1
  refine tmr_elim (P := fun r => sequencer r = sequencerTable b .tmr) b
    (noMatch := fun noMatch => ?noMatch)
    (closed := fun _ closed => ?closed)
    (counts := fun _ _ below => ?counts)
    (timesOut := fun isMatch gate reached => ?timesOut)
  case noMatch => rw [sequencerTable_tmr_stays fun h => noMatch h.2.1]; rfl
  case closed => rw [sequencerTable_tmr_stays fun h => Bool.noConfusion (closed.symm.trans h.1)]; rfl
  case counts => rw [sequencerTable_tmr_stays fun h => by have := h.2.2; omega]; rfl
  case timesOut =>
    obtain ⟨run, noStrobe⟩ := phase_of_gate hi gate
    rw [sequencerTable_tmr_timeout run noStrobe ⟨gate, isMatch, counted ▸ reached⟩, ← run]
    rfl

/-! ## The rows of `DONE` -/

/-- A strobe is outstanding in RUN only, and the error strobe in Locked only (R42 I1, I10), as the table's rows
have it. -/
theorem sequencer_done (hi : Invariants b) : sequencer (done b) = sequencerTable b .done := by
  rw [done_eq]
  cases strobe : b.fb with
  | none => simp [sequencerTable, sequencer, strobe]
  | timeoutAbort =>
    obtain ⟨run, -⟩ := hi.i1 (by simp [strobe])
    simp [sequencerTable, sequencer, strobe, run]
  | errorFeedback =>
    obtain ⟨run, -⟩ := hi.i1 (by simp [strobe])
    simp [sequencerTable, sequencer, strobe, run, hi.i10 strobe]

/-! ## The rows of `POLL` -/

/-- In RUN no row applies to a `POLL` that does not make the sixth entry. -/
theorem sequencerTable_poll_stays (noStrobe : b.fb = .none) (run : b.phase = .run)
    (notSixth : ¬ (ReleaseNow b k1 k2 ∧ b.count = 5)) : sequencerTable b (.poll k1 k2) = sequencer b := by
  rcases mode_cases b.mode with mode | mode
  · simp only [sequencerTable, sequencer, noStrobe, run, mode, if_neg notSixth]
  · simp only [sequencerTable, sequencer, noStrobe, run, mode, if_neg notSixth]

/-- Outside RUN the Mode is Locked (R42 I2), so that the table's BOOT and BYPASS rows are the ones met. -/
theorem sequencer_poll (hi : Invariants b) (k1 k2 : Bool) :
    sequencer (poll k1 k2 b) = sequencerTable b (.poll k1 k2) := by
  have locked (notRun : b.phase ≠ .run) : b.mode = .locked := by
    obtain ⟨-, -, -, -, -, mode, -⟩ := hi.i2 notRun
    exact mode
  have isFive (hn : b.count.val = 5) : b.count = 5 := Fin.ext hn
  refine poll_elim (P := fun r => sequencer r = sequencerTable b (.poll k1 k2)) b k1 k2
    (suspended := fun strobe => ?suspended)
    (bootBypass := fun hf hp hk => ?bootBypass)
    (bootLocked := fun hf hp hk hv => ?bootLocked)
    (bootUnlocked := fun hf hp hk hv => ?bootUnlocked)
    (bypassPress := fun hf hp press => ?bypassPress)
    (bypassRelease := fun hf hp release => ?bypassRelease)
    (bypassNone := fun hf hp _ noRelease => ?bypassNone)
    (runPress := fun hf hp press => ?runPress)
    (runNone := fun hf hp _ noRelease => ?runNone)
    (runEntry := fun hf hp _ below => ?runEntry)
    (runLock := fun hf hp release sixth hm => ?runLock)
    (runMatch := fun hf hp release sixth hm equal => ?runMatch)
    (runMismatch := fun hf hp release sixth hm differ => ?runMismatch)
  case suspended =>
    cases hf : b.fb with
    | none => exact absurd hf strobe
    | timeoutAbort => simp [sequencerTable, sequencer, hf]
    | errorFeedback => simp [sequencerTable, sequencer, hf]
  case bootBypass =>
    have hm := locked (by simp [hp])
    simp [sequencerTable, sequencer, hf, hp, hm, hk]
  case bootLocked =>
    have hm := locked (by simp [hp])
    simp [sequencerTable, sequencer, hf, hp, hm, hk, hv]
  case bootUnlocked =>
    have hm := locked (by simp [hp])
    simp [sequencerTable, sequencer, hf, hp, hm, hk, hv]
  case bypassPress =>
    have hm := locked (by simp [hp])
    simp only [sequencerTable, sequencer, hf, hp, hm, if_neg (not_release_of_press press)]
  case bypassRelease =>
    have hm := locked (by simp [hp])
    simp only [sequencerTable, sequencer, hf, hp, hm, if_pos release]
  case bypassNone =>
    have hm := locked (by simp [hp])
    simp only [sequencerTable, sequencer, hf, hp, hm, if_neg noRelease]
  case runPress => rw [sequencerTable_poll_stays hf hp fun h => not_release_of_press press h.1]; rfl
  case runNone => rw [sequencerTable_poll_stays hf hp fun h => noRelease h.1]; rfl
  case runEntry => rw [sequencerTable_poll_stays hf hp fun h => by simp [h.2] at below]; rfl
  case runLock =>
    simp only [sequencerTable, sequencer, hf, hp, hm, if_pos (And.intro release (isFive sixth))]
  case runMatch =>
    simp only [sequencerTable, sequencer, hf, hp, hm, if_pos (And.intro release (isFive sixth)), if_pos equal]
  case runMismatch =>
    simp only [sequencerTable, sequencer, hf, hp, hm, if_pos (And.intro release (isFive sixth)), if_neg differ]

/-! ## What a `POLL` tells of the key (R250) -/

/-- The block with another recorded digit and other digits entered. -/
def withKey (d : Bool) (a : Byte) (b : Block c) : Block c := { b with keyDown := d, acc := a }

/-- Equal up to the recorded digit and the accumulator. -/
def SameButKey (r r' : Block c) : Prop := ∃ (d : Bool) (a : Byte), r' = withKey d a r

/-- A `POLL` that completes no code reads the key lines by their or alone, but for the digit it records, and the
digits entered not at all. -/
theorem poll_sameButKey {j1 j2 : Bool} (lines : (k1 || k2) = (j1 || j2))
    (completesNone : ¬ (b.phase = .run ∧ b.count.val = 5 ∧ ReleaseNow b k1 k2)) (d : Bool) (a : Byte) :
    SameButKey (poll k1 k2 b) (poll j1 j2 (withKey d a b)) := by
  have shift : histAfter (withKey d a b) j1 j2 = histAfter b k1 k2 := by
    simp only [histAfter, withKey, lines]
  have press (h : PressNow b k1 k2) : PressNow (withKey d a b) j1 j2 := by rwa [PressNow, shift]
  have noPress (h : ¬ PressNow b k1 k2) : ¬ PressNow (withKey d a b) j1 j2 := by rwa [PressNow, shift]
  have release (h : ReleaseNow b k1 k2) : ReleaseNow (withKey d a b) j1 j2 := by rwa [ReleaseNow, shift]
  have noRelease (h : ¬ ReleaseNow b k1 k2) : ¬ ReleaseNow (withKey d a b) j1 j2 := by
    rwa [ReleaseNow, shift]
  refine poll_elim (P := fun r => SameButKey r (poll j1 j2 (withKey d a b))) b k1 k2
    (suspended := fun hf => ⟨d, a, poll_suspended hf⟩)
    (bootBypass := fun hf hp hk => ⟨d, a, poll_boot_bypass hf hp (lines ▸ hk)⟩)
    (bootLocked := fun hf hp hk hv => ⟨d, c.init, poll_boot_locked hf hp (lines ▸ hk) hv⟩)
    (bootUnlocked := fun hf hp hk hv => ⟨d, c.init, poll_boot_unlocked hf hp (lines ▸ hk) hv⟩)
    (bypassPress := fun hf hp h => ⟨j1, a, ?bypassPress⟩)
    (bypassRelease := fun hf hp h => ⟨d, c.init, ?bypassRelease⟩)
    (bypassNone := fun hf hp h1 h2 => ⟨d, a, ?bypassNone⟩)
    (runPress := fun hf hp h => ⟨j1, a, ?runPress⟩)
    (runNone := fun hf hp h1 h2 => ⟨d, a, ?runNone⟩)
    (runEntry := fun hf hp h hn => ⟨d, accAfter (withKey d a b), ?runEntry⟩)
    (runLock := fun _ hp h hn _ => absurd ⟨hp, hn, h⟩ completesNone)
    (runMatch := fun _ hp h hn _ _ => absurd ⟨hp, hn, h⟩ completesNone)
    (runMismatch := fun _ hp h hn _ _ => absurd ⟨hp, hn, h⟩ completesNone)
  case bypassPress => rw [poll_bypass_press (b := withKey d a b) hf hp (press h), shift]; rfl
  case bypassRelease => rw [poll_bypass_release (b := withKey d a b) hf hp (release h), shift]; rfl
  case bypassNone =>
    rw [poll_bypass_none (b := withKey d a b) hf hp (noPress h1) (noRelease h2), shift]; rfl
  case runPress => rw [poll_run_press (b := withKey d a b) hf hp (press h), shift]; rfl
  case runNone => rw [poll_run_none (b := withKey d a b) hf hp (noPress h1) (noRelease h2), shift]; rfl
  case runEntry => rw [poll_run_entry (b := withKey d a b) hf hp (release h) hn, shift]; rfl

/-! ## The obligations -/

/-- Settles O41: the rows of each micro-operation, over the states that meet R42. -/
theorem sequencerFollowsTheTable : Obligations.SequencerFollowsTheTable := by
  unfold Obligations.SequencerFollowsTheTable
  intro c b q i inv single
  have hi : Invariants (beginCycle b) := (beginCycle_keeps_inv inv).invariants
  refine ⟨_, exec_eq_next i b q, ?_⟩
  rcases single with listed | ⟨k1, k2, rfl⟩
  · simp only [List.mem_cons, List.not_mem_nil, or_false] at listed
    rcases listed with rfl | rfl | rfl | rfl
    · rfl
    · rfl
    · exact sequencer_tmr inv.cfgWf hi
    · exact sequencer_done hi
  · exact sequencer_poll hi k1 k2

/-- Settles O55: in the branches left, the key and the digits go to `key_down` and `acc` alone. -/
theorem outputsDoNotTellTheKey : Obligations.OutputsDoNotTellTheKey := by
  unfold Obligations.OutputsDoNotTellTheKey
  intro c b q k1 k2 j1 j2 d a lines completesNone
  obtain ⟨d', a', same⟩ := poll_sameButKey (b := beginCycle b) lines completesNone d a
  exact ⟨_, d', a', exec_eq_next (.poll k1 k2) b q, exec_eq_of same⟩

end Sys2Proof.Machine
end

section
/-! The watchdog's countdown (`41_watchdog.md` section 3): a timeout needs an entry in progress, and comes when the
count the last release started is used up (R129). -/

namespace Sys2Proof.Machine

variable {c : Config} {b r : Block c} {q : List Stim}

/-! ## A timeout in a cycle -/

/-- Since the cycle began at `b`, the entry in progress timed out, and `r` is what that leaves. -/
structure TimedOut (b r : Block c) : Prop where
  inProgress : 1 ≤ b.count.val ∧ b.count.val ≤ 5
  run : b.phase = .run
  count : r.count = 0
  mode : r.mode = b.mode
  store : r.store = b.store
  strobe : r.fb = .timeoutAbort

theorem tmr_timedOut (h : LockUntouched b r) (hi : Invariants r) (quiet : r.out.entryTimedOut = false)
    (raised : (tmr r).out.entryTimedOut = true) : TimedOut b (tmr r) := by
  obtain ⟨isMatch, due⟩ := (tmr_entryTimedOut_iff quiet).mp raised
  obtain ⟨run, -⟩ := phase_of_gate hi due.1
  rw [tmr_timesOut isMatch due]
  exact ⟨h.count ▸ hi.i3.mp due.1, h.phase.symm.trans run, rfl, h.mode, h.store, rfl⟩

/-- Only the `TMR` of a cycle times out, and its strobe suspends the `POLL`. -/
theorem cycleOf_timedOut (i : Instr) (inv : Inv ⟨c, b, q⟩) :
    (cycleOf i b).out.entryTimedOut = true → TimedOut b (cycleOf i b) := by
  refine cycle_stages
    (Before := fun r => LockUntouched b r ∧ Inv ⟨c, r, q⟩ ∧ r.out.entryTimedOut = false)
    (Between := fun r => r.out.entryTimedOut = true → TimedOut b r)
    (After := fun r => r.out.entryTimedOut = true → TimedOut b r) i b
    (reset := fun _ => nofun)
    (start := ⟨beginCycle_lockUntouched b, beginCycle_keeps_inv inv, rfl⟩)
    (onDone := fun r ⟨h, inv, quiet⟩ =>
      ⟨done_lockUntouched h, done_keeps_inv inv, by rw [done_eq]; exact quiet⟩)
    (noTmr := fun r ⟨_, _, quiet⟩ raised => absurd (quiet.symm.trans raised) nofun)
    (onTmr := fun r ⟨h, inv, quiet⟩ => tmr_timedOut h inv.invariants quiet)
    (noPoll := fun r h => h)
    (onPoll := fun k1 k2 _ r h raised => ?onPoll)
  case onPoll =>
    obtain ⟨-, -, -, same⟩ := poll_frame k1 k2 r
    have timedOut := h (same.symm.trans raised)
    rwa [poll_suspended (by simp [timedOut.strobe])]

/-! ## The start of the countdown -/

/-- Every confirmed release leaves no ticks counted (R163, R164, R169). -/
theorem poll_ticks_of_release (k1 k2 : Bool) (quiet : b.out.releaseConfirmed = false) :
    (poll k1 k2 b).out.releaseConfirmed = true → (poll k1 k2 b).ticks = 0#8 :=
  have noRelease {x : Prop} (h : b.out.releaseConfirmed = true) : x := absurd (quiet.symm.trans h) nofun
  poll_elim (P := fun r => r.out.releaseConfirmed = true → r.ticks = 0#8) b k1 k2
    (suspended := fun _ => noRelease)
    (bootBypass := fun _ _ _ => noRelease)
    (bootLocked := fun _ _ _ _ _ => rfl)
    (bootUnlocked := fun _ _ _ _ _ => rfl)
    (bypassPress := fun _ _ _ => noRelease)
    (bypassRelease := fun _ _ _ _ => rfl)
    (bypassNone := fun _ _ _ _ => noRelease)
    (runPress := fun _ _ _ => noRelease)
    (runNone := fun _ _ _ _ => noRelease)
    (runEntry := fun _ _ _ _ _ => rfl)
    (runLock := fun _ _ _ _ _ _ => rfl)
    (runMatch := fun _ _ _ _ _ _ _ => rfl)
    (runMismatch := fun _ _ _ _ _ _ _ => rfl)

theorem cycleOf_ticks_of_release (i : Instr) (b : Block c) :
    (cycleOf i b).out.releaseConfirmed = true → (cycleOf i b).ticks = 0#8 :=
  cycle_stages (Before := fun r => r.out.releaseConfirmed = false)
    (Between := fun r => r.out.releaseConfirmed = false)
    (After := fun r => r.out.releaseConfirmed = true → r.ticks = 0#8) i b
    (reset := fun _ => nofun)
    (start := rfl)
    (onDone := fun r quiet => by rw [done_eq]; exact quiet)
    (noTmr := fun r quiet => quiet)
    (onTmr := fun r quiet => by
      obtain ⟨-, -, -, -, -, -, -, same, -, -⟩ := tmr_frame r
      exact same.trans quiet)
    (noPoll := fun r quiet raised => absurd (quiet.symm.trans raised) nofun)
    (onPoll := fun k1 k2 _ r => poll_ticks_of_release k1 k2)

/-- With no ticks counted the timeout is the remainder of one period and `TIMEOUT_TICKS - 1` whole ones away. -/
theorem countsToTimeout_of_noTicks (hc : c.wf = true) (hi : Invariants b) (ticks : b.ticks = 0#8) :
    (c.timeoutTicks - 1) * c.timerStep + 1 ≤ countsToTimeout b ∧
      countsToTimeout b ≤ c.timeoutTicks * c.timerStep := by
  obtain ⟨-, -, ⟨timeout_pos, -⟩, -⟩ := wf_parts hc
  have distance : 1 ≤ countsToMatch b ∧ countsToMatch b ≤ c.timerStep := hi.i9
  have away : countsToTimeout b = countsToMatch b + (c.timeoutTicks - 1) * c.timerStep := by
    simp [countsToTimeout, ticks]
  have periods : c.timeoutTicks * c.timerStep = (c.timeoutTicks - 1) * c.timerStep + c.timerStep := by
    rw [← Nat.succ_mul, Nat.succ_eq_add_one, Nat.sub_add_cancel timeout_pos]
  omega

/-! ## The countdown under `TMR` -/

/-- A `TMR` over an entry in progress takes one count off, or times it out at the last. -/
theorem tmr_countdown (hc : c.wf = true) (hi : Invariants b) (gate : b.gate = true)
    (quiet : b.out.entryTimedOut = false) :
    ((tmr b).out.entryTimedOut = true ↔ countsToTimeout b = 1) ∧
      (countsToTimeout b ≠ 1 → (tmr b).gate = true ∧ countsToTimeout (tmr b) + 1 = countsToTimeout b) := by
  obtain ⟨-, -, ⟨timeout_pos, -⟩, step_pos, step_lt⟩ := wf_parts hc
  have counted : (b.ticks + 1#8).toNat = b.ticks.toNat + 1 := ticks_succ hc hi.i4.1
  have below : b.ticks.toNat < c.timeoutTicks := hi.i4.1
  have pos : 1 ≤ countsToMatch b := hi.i9.1
  refine tmr_elim (P := fun r => (r.out.entryTimedOut = true ↔ countsToTimeout b = 1) ∧
      (countsToTimeout b ≠ 1 → r.gate = true ∧ countsToTimeout r + 1 = countsToTimeout b)) b
    (noMatch := fun noMatch => ?noMatch)
    (closed := fun _ closed => absurd (gate.symm.trans closed) nofun)
    (counts := fun isMatch _ more => ?counts)
    (timesOut := fun isMatch _ reached => ?timesOut)
  case noMatch =>
    have nearer : countsToMatch { b with tcnt := b.tcnt + 1#c.timerWidth } + 1 = countsToMatch b :=
      distance_count noMatch pos
    have notOne : countsToMatch b ≠ 1 := distance_ne_one noMatch
    refine ⟨iff_of_false (by simp [quiet]) ?_, fun _ => ⟨gate, ?_⟩⟩
    · simp only [countsToTimeout]
      omega
    · simp only [countsToTimeout]
      omega
  case counts =>
    have one : countsToMatch b = 1 := (matchNow_iff_countsToMatch hc b).mp isMatch
    have whole : countsToMatch { firedTimer b with ticks := b.ticks + 1#8 } = c.timerStep :=
      distance_after_match isMatch step_lt
    have period : (c.timeoutTicks - 1 - b.ticks.toNat) * c.timerStep =
        (c.timeoutTicks - 1 - (b.ticks.toNat + 1)) * c.timerStep + c.timerStep := by
      rw [← Nat.succ_mul]
      congr 1
      omega
    refine ⟨iff_of_false (by simp [firedTimer, quiet]) ?_, fun _ => ⟨gate, ?_⟩⟩
    · simp only [countsToTimeout]
      omega
    · simp only [countsToTimeout, whole, one, counted]
      omega
  case timesOut =>
    have one : countsToMatch b = 1 := (matchNow_iff_countsToMatch hc b).mp isMatch
    have last : c.timeoutTicks - 1 - b.ticks.toNat = 0 := by omega
    have ends : countsToTimeout b = 1 := by rw [countsToTimeout, one, last, Nat.zero_mul]
    exact ⟨iff_of_true rfl ends, fun h => absurd ends h⟩

/-! ## The countdown under `POLL` -/

/-- A running `POLL` that confirms no release leaves the gate and the countdown. -/
theorem poll_countdown (k1 k2 : Bool) (run : b.phase = .run) :
    (poll k1 k2 b).out.releaseConfirmed = false →
      (poll k1 k2 b).gate = b.gate ∧ countsToTimeout (poll k1 k2 b) = countsToTimeout b :=
  have notBoot {x : Prop} (h : b.phase = .boot) : x := absurd (run.symm.trans h) nofun
  have notBypass {x : Prop} (h : b.phase = .bypass) : x := absurd (run.symm.trans h) nofun
  poll_elim (P := fun r => r.out.releaseConfirmed = false →
      r.gate = b.gate ∧ countsToTimeout r = countsToTimeout b) b k1 k2
    (suspended := fun _ _ => ⟨rfl, rfl⟩)
    (bootBypass := fun _ hp _ => notBoot hp)
    (bootLocked := fun _ hp _ _ => notBoot hp)
    (bootUnlocked := fun _ hp _ _ => notBoot hp)
    (bypassPress := fun _ hp _ => notBypass hp)
    (bypassRelease := fun _ hp _ => notBypass hp)
    (bypassNone := fun _ hp _ _ => notBypass hp)
    (runPress := fun _ _ _ _ => ⟨rfl, rfl⟩)
    (runNone := fun _ _ _ _ _ => ⟨rfl, rfl⟩)
    (runEntry := fun _ _ _ _ => nofun)
    (runLock := fun _ _ _ _ _ => nofun)
    (runMatch := fun _ _ _ _ _ _ => nofun)
    (runMismatch := fun _ _ _ _ _ _ => nofun)

/-- The end of a cycle, a `POLL` or none, without a release. -/
theorem lastStage_countdown (e k1 k2 : Bool) (run : b.phase = .run) :
    let r := (if e then poll k1 k2 else id) b
    r.out.releaseConfirmed = false →
      r.gate = b.gate ∧ countsToTimeout r = countsToTimeout b ∧ r.out.entryTimedOut = b.out.entryTimedOut := by
  cases e with
  | false => exact fun _ => ⟨rfl, rfl, rfl⟩
  | true =>
    intro r noRelease
    obtain ⟨gate, countdown⟩ := poll_countdown k1 k2 run noRelease
    obtain ⟨-, -, -, timedOut⟩ := poll_frame k1 k2 b
    exact ⟨gate, countdown, timedOut⟩

/-- An entry in progress has no strobe for a `DONE` to end, so the cycle starts at its `TMR`. -/
theorem cycleOf_decode_of_entry {w : Stim} (noPor : Stim.por w = false) (hi : Invariants b)
    (gate : b.gate = true) :
    cycleOf (decode w) b = (if Stim.pollEn w then poll (Stim.k1 w) (Stim.k2 w) else id)
      ((if Stim.tmrEn w then tmr else id) (beginCycle b)) := by
  obtain ⟨-, noStrobe⟩ := phase_of_gate hi gate
  have nothingEnded : (if Stim.indDone w then done else id) (beginCycle b) = beginCycle b := by
    cases Stim.indDone w with
    | false => rfl
    | true => exact done_of_none noStrobe
  rw [cycleOf_decode noPor, nothingEnded]

/-! ## The obligations -/

/-- Settles O50: only a `TMR` with the gate open times out. -/
theorem timeoutOnlyDuringAnEntry : Obligations.TimeoutOnlyDuringAnEntry := by
  unfold Obligations.TimeoutOnlyDuringAnEntry
  intro c b q i inv
  refine ⟨_, exec_eq_next i b q, fun raised => ?_⟩
  obtain ⟨⟨atLeast, atMost⟩, run, count, mode, store, strobe⟩ := cycleOf_timedOut i inv raised
  exact ⟨atLeast, atMost, run, count, mode, nv_congr store, strobe⟩

/-- Settles O51: a release restarts the countdown, `TMR` takes one count off it, and nothing else touches it. -/
theorem timeoutComesAtTheEndOfTheCountdown : Obligations.TimeoutComesAtTheEndOfTheCountdown := by
  unfold Obligations.TimeoutComesAtTheEndOfTheCountdown
  intro c b w rest inv noPor
  have hc : c.wf = true := inv.cfgWf
  have hi : Invariants b := inv.invariants
  have hi' : Invariants (cycleOf (decode w) b) := (cycleOf_keeps_inv (decode w) inv).invariants
  refine ⟨_, step_cons hc b w rest, fun released _ => ?starts, fun noRelease gate noTmr => ?stays,
    fun noRelease gate counts => ?counts⟩
  case starts => exact countsToTimeout_of_noTicks hc hi' (cycleOf_ticks_of_release _ b released)
  case stays =>
    obtain ⟨run, -⟩ := phase_of_gate hi gate
    rw [cycleOf_decode_of_entry noPor hi gate, noTmr] at noRelease ⊢
    obtain ⟨gate', countdown, timedOut⟩ := lastStage_countdown (b := beginCycle b) _ _ _ run noRelease
    exact ⟨timedOut, gate'.trans gate, countdown⟩
  case counts =>
    obtain ⟨run, -⟩ := phase_of_gate hi gate
    obtain ⟨-, -, -, phase, -⟩ := tmr_frame (beginCycle b)
    obtain ⟨timesOut, oneOff⟩ := tmr_countdown (b := beginCycle b) hc (beginCycle_keeps_inv inv).invariants gate rfl
    rw [cycleOf_decode_of_entry noPor hi gate, counts] at noRelease ⊢
    obtain ⟨gate', countdown, timedOut⟩ :=
      lastStage_countdown (b := tmr (beginCycle b)) _ _ _ (phase.trans run) noRelease
    refine ⟨(iff_of_eq (congrArg (· = true) timedOut)).trans timesOut, fun notLast => ?_⟩
    obtain ⟨stillOpen, nearer⟩ := oneOff notLast
    exact ⟨gate'.trans stillOpen, countdown ▸ nearer⟩

end Sys2Proof.Machine
end

section
/-! Keys over time (`40_debouncer.md`, `30_encoding.md` sections 4 and 5): equal samples fill the history (R102), so
`PRESS`, `RELEASE` and `KEY` act at their last word (R92), and six keys enter a code (`43_lock_fsm.md` R178). -/

namespace Sys2Proof.Machine

variable {c : Config} {b r : Block c} {q : List Stim} {k1 k2 s d : Bool}

/-! ## The history under equal samples -/

/-- The history after `n` shifts of the sample `s`. -/
def sampled {w : Nat} (s : Bool) (n : Nat) (h : BitVec w) : BitVec w := (fun x => shiftHist x s)^[n] h

/-- The history that holds only the sample `s`. -/
def full (w : Nat) (s : Bool) : BitVec w := if s then BitVec.allOnes w else 0#w

theorem sampled_succ {w : Nat} (s : Bool) (n : Nat) (h : BitVec w) :
    sampled s (n + 1) h = shiftHist (sampled s n h) s := Function.iterate_succ_apply' ..

theorem getLsbD_full {w i : Nat} (s : Bool) (hi : i < w) : (full w s).getLsbD i = s := by
  cases s with
  | false => simp [full]
  | true => simp [full, hi]

theorem getLsbD_shiftHist {w i : Nat} (h : BitVec w) (s : Bool) (hi : i < w) :
    (shiftHist h s).getLsbD i = if i = 0 then s else h.getLsbD (i - 1) := by
  cases i with
  | zero => simp [shiftHist, hi]
  | succ i => simp [shiftHist, hi, BitVec.getLsbD_eq_getElem (Nat.lt_of_succ_lt hi)]

/-- After `n` shifts the `n` newest samples are `s` and the others `n` places older. -/
theorem getLsbD_sampled {w i : Nat} (s : Bool) (n : Nat) (h : BitVec w) (hi : i < w) :
    (sampled s n h).getLsbD i = if i < n then s else h.getLsbD (i - n) := by
  induction n generalizing i with
  | zero => simp [sampled]
  | succ n ih =>
    rw [sampled_succ, getLsbD_shiftHist _ _ hi]
    cases i with
    | zero => simp
    | succ i => simp [ih (Nat.lt_of_succ_lt hi)]

/-- As many samples as the history is deep fill it. -/
theorem sampled_depth {w : Nat} (s : Bool) (h : BitVec w) : sampled s w h = full w s := by
  refine BitVec.eq_of_getLsbD_eq fun i hi => ?_
  rw [getLsbD_sampled s w h hi, if_pos hi, getLsbD_full s hi]

/-- Fewer do not fill a history of the other sample: its oldest bit is still the other one. -/
theorem sampled_ne_full {w n : Nat} (s : Bool) (hn : n < w) : sampled s n (full w !s) ≠ full w s := by
  intro same
  have oldest := congrArg (·.getLsbD (w - 1)) same
  simp only [getLsbD_sampled s n (full w !s) (show w - 1 < w by omega), if_neg (show ¬ w - 1 < n by omega),
    getLsbD_full (!s) (show w - 1 - n < w by omega), getLsbD_full s (show w - 1 < w by omega)] at oldest
  exact Bool.not_ne_self s oldest

/-! ## A polling tick without an event -/

/-- From `b` to `r` polling ticks without an event shifted samples in, up to the history `h`. -/
def OnlySampled (b r : Block c) (h : BitVec c.depth) : Prop :=
  ∃ (x : VisualState) (o : Outputs), r = { b with hist := h, ind := x, out := o }

/-- No key event on the outputs. -/
abbrev NoEvent (r : Block c) : Prop := r.out.pressConfirmed = false ∧ r.out.releaseConfirmed = false

theorem cycleOf_poll_none (noStrobe : b.fb = .none) (notBoot : b.phase ≠ .boot)
    (noPress : ¬ PressNow b k1 k2) (noRelease : ¬ ReleaseNow b k1 k2) :
    OnlySampled b (cycleOf (.poll k1 k2) b) (histAfter b k1 k2) ∧ NoEvent (cycleOf (.poll k1 k2) b) := by
  cases phase : b.phase with
  | boot => exact absurd phase notBoot
  | bypass =>
    rw [cycleOf, poll_bypass_none (b := beginCycle b) noStrobe phase noPress noRelease]
    exact ⟨⟨_, _, rfl⟩, rfl, rfl⟩
  | run =>
    rw [cycleOf, poll_run_none (b := beginCycle b) noStrobe phase noPress noRelease]
    exact ⟨⟨_, _, rfl⟩, rfl, rfl⟩

/-- The debouncer at rest on the sample `s`: a key held down and confirmed, or none (R105). -/
structure AtRest (s : Bool) (b : Block c) : Prop where
  hist : b.hist = full c.depth s
  pressed : b.pressed = s

/-- The event a full history of the sample `s` confirms (R103, R104). -/
abbrev EventNow (s : Bool) (b : Block c) (k1 k2 : Bool) : Prop :=
  histAfter b k1 k2 = full c.depth s ∧ b.pressed = !s

theorem eventNow_of_press (h : PressNow b k1 k2) (pressed : b.pressed = !s) : EventNow s b k1 k2 := by
  have isTrue : s = true := by simpa [pressed] using h.2
  exact ⟨by rw [h.1, isTrue]; rfl, pressed⟩

theorem eventNow_of_release (h : ReleaseNow b k1 k2) (pressed : b.pressed = !s) : EventNow s b k1 k2 := by
  have isFalse : s = false := by simpa [pressed] using h.2
  exact ⟨by rw [h.1, isFalse]; rfl, pressed⟩

/-- The coming tick shifts one sample more into the history. -/
theorem OnlySampled.histAfter_eq {n : Nat} (h : OnlySampled b r (sampled s n b.hist))
    (lines : (k1 || k2) = s) : histAfter r k1 k2 = sampled s (n + 1) b.hist := by
  obtain ⟨x, o, rfl⟩ := h
  rw [sampled_succ, ← lines]
  rfl

/-- From rest on the other sample no event comes before the history is filled. -/
theorem not_eventNow {n : Nat} (rest : AtRest (!s) b) (h : OnlySampled b r (sampled s n b.hist))
    (lines : (k1 || k2) = s) (notLast : n + 1 < c.depth) : ¬ EventNow s r k1 k2 := fun event => by
  rw [EventNow, h.histAfter_eq lines, rest.hist] at event
  exact sampled_ne_full s notLast event.1

/-- When it is filled, the event comes. -/
theorem eventNow_of_last {n : Nat} (rest : AtRest (!s) b) (h : OnlySampled b r (sampled s n b.hist))
    (lines : (k1 || k2) = s) (last : n + 1 = c.depth) : EventNow s r k1 k2 := by
  refine ⟨by rw [h.histAfter_eq lines, last, sampled_depth], ?_⟩
  obtain ⟨x, o, rfl⟩ := h
  exact rest.pressed

/-- A tick before the last one: only its sample is shifted in. -/
theorem cycleOf_poll_notLast {n : Nat} (noStrobe : b.fb = .none) (notBoot : b.phase ≠ .boot)
    (rest : AtRest (!s) b) (lines : (k1 || k2) = s) (h : OnlySampled b r (sampled s n b.hist))
    (notLast : n + 1 < c.depth) :
    OnlySampled b (cycleOf (.poll k1 k2) r) (sampled s (n + 1) b.hist) ∧
      NoEvent (cycleOf (.poll k1 k2) r) := by
  have noEvent := not_eventNow rest h lines notLast
  have shifted := h.histAfter_eq lines
  obtain ⟨x, o, rfl⟩ := h
  obtain ⟨⟨x', o', same⟩, quiet⟩ := cycleOf_poll_none (k1 := k1) (k2 := k2)
    (b := { b with hist := sampled s n b.hist, ind := x, out := o }) noStrobe notBoot
    (fun press => noEvent (eventNow_of_press press rest.pressed))
    (fun release => noEvent (eventNow_of_release release rest.pressed))
  exact ⟨⟨x', o', same.trans (by rw [shifted])⟩, quiet⟩

/-- The words of a repeated `POLL`. -/
theorem cyclesOf_wordsOf_succ (i : Instr) (n : Nat) (b : Block c) :
    cyclesOf (wordsOf i (n + 1)) b = cycleOf i (cyclesOf (wordsOf i n) b) := by
  rw [wordsOf, List.replicate_succ', cyclesOf_concat, decode_encode, wordsOf]

/-- Fewer equal samples than the history is deep are only shifted in. -/
theorem cyclesOf_polls (noStrobe : b.fb = .none) (notBoot : b.phase ≠ .boot) (rest : AtRest (!s) b)
    (lines : (k1 || k2) = s) {n : Nat} (hn : n < c.depth) :
    OnlySampled b (cyclesOf (wordsOf (.poll k1 k2) n) b) (sampled s n b.hist) := by
  induction n with
  | zero => exact ⟨_, _, rfl⟩
  | succ n ih =>
    rw [cyclesOf_wordsOf_succ]
    exact (cycleOf_poll_notLast noStrobe notBoot rest lines (ih (Nat.lt_of_succ_lt hn)) hn).1

/-! ## The last tick -/

/-- The block with the digit `d` confirmed and its key still down. -/
def Held (d : Bool) (b r : Block c) : Prop :=
  ∃ (x : VisualState) (o : Outputs),
    r = { b with hist := BitVec.allOnes c.depth, pressed := true, keyDown := d, ind := x, out := o }

theorem cycleOf_poll_press (noStrobe : b.fb = .none) (notBoot : b.phase ≠ .boot)
    (press : PressNow b k1 k2) :
    Held k1 b (cycleOf (.poll k1 k2) b) ∧ (cycleOf (.poll k1 k2) b).out.pressConfirmed = true ∧
      (cycleOf (.poll k1 k2) b).out.releaseConfirmed = false := by
  have filled : histAfter (beginCycle b) k1 k2 = BitVec.allOnes c.depth := press.1
  cases phase : b.phase with
  | boot => exact absurd phase notBoot
  | bypass =>
    rw [cycleOf, poll_bypass_press (b := beginCycle b) noStrobe phase press, filled]
    exact ⟨⟨_, _, rfl⟩, rfl, rfl⟩
  | run =>
    rw [cycleOf, poll_run_press (b := beginCycle b) noStrobe phase press, filled]
    exact ⟨⟨_, _, rfl⟩, rfl, rfl⟩

/-- From rest without a key, `N` polls of a key confirm its press. -/
theorem cyclesOf_press (noStrobe : b.fb = .none) (notBoot : b.phase ≠ .boot) (rest : AtRest false b)
    (lines : (k1 || k2) = true) {n : Nat} (last : n + 1 = c.depth) :
    let r := cyclesOf (wordsOf (.poll k1 k2) (n + 1)) b
    Held k1 b r ∧ r.out.pressConfirmed = true ∧ r.out.releaseConfirmed = false := by
  have before := cyclesOf_polls (s := true) noStrobe notBoot rest lines (n := n) (by omega)
  have event := eventNow_of_last (s := true) rest before lines last
  rw [cyclesOf_wordsOf_succ]
  obtain ⟨x, o, same⟩ := before
  rw [same] at event ⊢
  obtain ⟨⟨x', o', held⟩, raised⟩ := cycleOf_poll_press (k1 := k1) (k2 := k2)
    (b := { b with hist := sampled true n b.hist, ind := x, out := o }) noStrobe notBoot event
  exact ⟨⟨x', o', held⟩, raised⟩

/-- A confirmed release empties the history and is raised, in BYPASS and in RUN. -/
theorem poll_release (noStrobe : b.fb = .none) (notBoot : b.phase ≠ .boot) (release : ReleaseNow b k1 k2) :
    (poll k1 k2 b).out.releaseConfirmed = true ∧
      (poll k1 k2 b).out.pressConfirmed = b.out.pressConfirmed ∧
      (poll k1 k2 b).hist = 0#c.depth ∧ (poll k1 k2 b).pressed = false :=
  poll_elim (P := fun r => r.out.releaseConfirmed = true ∧ r.out.pressConfirmed = b.out.pressConfirmed ∧
      r.hist = 0#c.depth ∧ r.pressed = false) b k1 k2
    (suspended := fun strobe => absurd noStrobe strobe)
    (bootBypass := fun _ hp _ => absurd hp notBoot)
    (bootLocked := fun _ hp _ _ => absurd hp notBoot)
    (bootUnlocked := fun _ hp _ _ => absurd hp notBoot)
    (bypassPress := fun _ _ press => absurd press (not_press_of_release release))
    (bypassRelease := fun _ _ h => ⟨rfl, rfl, h.1, rfl⟩)
    (bypassNone := fun _ _ _ noRelease => absurd release noRelease)
    (runPress := fun _ _ press => absurd press (not_press_of_release release))
    (runNone := fun _ _ _ noRelease => absurd release noRelease)
    (runEntry := fun _ _ h _ => ⟨rfl, rfl, h.1, rfl⟩)
    (runLock := fun _ _ h _ _ => ⟨rfl, rfl, h.1, rfl⟩)
    (runMatch := fun _ _ h _ _ _ => ⟨rfl, rfl, h.1, rfl⟩)
    (runMismatch := fun _ _ h _ _ _ => ⟨rfl, rfl, h.1, rfl⟩)

/-- From rest with a key confirmed, `N - 1` polls without it bring the debouncer to its release. -/
theorem cyclesOf_beforeRelease (noStrobe : b.fb = .none) (notBoot : b.phase ≠ .boot) (rest : AtRest true b)
    {n : Nat} (last : n + 1 = c.depth) :
    OnlySampled b (cyclesOf (wordsOf (.poll false false) n) b) (sampled false n b.hist) ∧
      ReleaseNow (cyclesOf (wordsOf (.poll false false) n) b) false false := by
  have before := cyclesOf_polls (s := false) (k1 := false) (k2 := false) noStrobe notBoot rest rfl
    (n := n) (by omega)
  exact ⟨before, eventNow_of_last (s := false) rest before rfl last⟩

/-! ## Word by word (R92) -/

/-- The first words of a repeated operation. -/
theorem take_wordsOf {j n : Nat} (i : Instr) (hj : j < n) :
    (wordsOf i n).take (j + 1) = wordsOf i (j + 1) := by
  rw [wordsOf, List.take_replicate, Nat.min_eq_left hj, wordsOf]

theorem pressWords_eq (c : Config) (k : Bool) :
    (if k then press1 c else press2 c) = wordsOf (.poll k (!k)) c.depth := by
  cases k with
  | false => rfl
  | true => rfl

/-- Each word of a `PRESS`: only the last confirms the press. -/
theorem cyclesOf_press_word (noStrobe : b.fb = .none) (notBoot : b.phase ≠ .boot) (rest : AtRest false b)
    (k : Bool) {j : Nat} (hj : j < c.depth) :
    let r := cyclesOf (wordsOf (.poll k (!k)) (j + 1)) b
    r.out.pressConfirmed = decide (j + 1 = c.depth) ∧ r.out.releaseConfirmed = false ∧
      (j + 1 = c.depth → r.hist = BitVec.allOnes c.depth ∧ r.pressed = true ∧ r.keyDown = k) := by
  have lines : (k || !k) = true := Bool.or_not_self k
  intro r
  by_cases last : j + 1 = c.depth
  · obtain ⟨⟨x, o, held⟩, raised, noRelease⟩ := cyclesOf_press noStrobe notBoot rest lines last
    exact ⟨raised.trans (decide_eq_true last).symm, noRelease, fun _ =>
      ⟨congrArg Block.hist held, congrArg Block.pressed held, congrArg Block.keyDown held⟩⟩
  · have before := cyclesOf_polls (s := true) noStrobe notBoot rest lines hj
    obtain ⟨-, noPress, noRelease⟩ :=
      cycleOf_poll_notLast (s := true) noStrobe notBoot rest lines before (by omega)
    rw [← cyclesOf_wordsOf_succ] at noPress noRelease
    exact ⟨noPress.trans (decide_eq_false last).symm, noRelease, fun h => absurd h last⟩

/-- Each word of a `RELEASE`: only the last confirms the release. -/
theorem cyclesOf_release_word (noStrobe : b.fb = .none) (notBoot : b.phase ≠ .boot) (rest : AtRest true b)
    {j : Nat} (hj : j < c.depth) :
    let r := cyclesOf (wordsOf (.poll false false) (j + 1)) b
    r.out.releaseConfirmed = decide (j + 1 = c.depth) ∧ r.out.pressConfirmed = false ∧
      (j + 1 = c.depth → r.hist = 0#c.depth ∧ r.pressed = false) := by
  intro r
  have lastWord : r = cycleOf (.poll false false) (cyclesOf (wordsOf (.poll false false) j) b) :=
    cyclesOf_wordsOf_succ (.poll false false) j b
  rw [lastWord]
  by_cases last : j + 1 = c.depth
  · obtain ⟨⟨x, o, same⟩, released⟩ := cyclesOf_beforeRelease noStrobe notBoot rest last
    obtain ⟨raised, noPress, emptied, up⟩ := poll_release
      (b := beginCycle (cyclesOf (wordsOf (.poll false false) j) b)) (k1 := false) (k2 := false)
      (by rw [same]; exact noStrobe) (by rw [same]; exact notBoot) released
    exact ⟨raised.trans (decide_eq_true last).symm, noPress, fun _ => ⟨emptied, up⟩⟩
  · have before := cyclesOf_polls (s := false) (k1 := false) (k2 := false) noStrobe notBoot rest rfl hj
    obtain ⟨-, noPress, noRelease⟩ :=
      cycleOf_poll_notLast (s := false) (k1 := false) (k2 := false) noStrobe notBoot rest rfl before (by omega)
    exact ⟨noRelease.trans (decide_eq_false last).symm, noPress, fun h => absurd h last⟩

/-! ## The timer under `WDFIRE` -/

/-- After `n` of the `TMR` of a `WDFIRE` the match is at the one whose number is `TIMER_STEP`. -/
theorem timerAfter_wdFire (hc : c.wf = true) (start : countsToMatch b = c.timerStep) (n : Nat) :
    TimerAfter n (cyclesOf (wordsOf .tmr n) b) := by
  obtain ⟨-, -, -, step_pos, -⟩ := wf_parts hc
  induction n with
  | zero =>
    have aligned : c.timerStep ∣ 0 + countsToMatch b := by rw [start, Nat.zero_add]
    exact ⟨start ▸ step_pos, start.le, aligned⟩
  | succ n ih =>
    rw [cyclesOf_wordsOf_succ]
    exact timerAfter_tmr hc (ih.congr rfl)

/-- A match at the `TIMER_STEP`-th `TMR` leaves `TIMER_STEP` counts to the next. -/
theorem TimerAfter.countsToMatch_of_step (h : TimerAfter c.timerStep b) : countsToMatch b = c.timerStep :=
  Nat.le_antisymm h.le (Nat.le_of_dvd h.pos ((Nat.dvd_add_right (Nat.dvd_refl _)).mp h.aligned))

/-- Each word of a `WDFIRE`: only the last is a compare match. -/
theorem cyclesOf_wdFire_word (hc : c.wf = true) (start : countsToMatch b = c.timerStep) {j : Nat}
    (hj : j < c.timerStep) :
    let r := cyclesOf (wordsOf .tmr (j + 1)) b
    r.out.wdIrq = decide (j + 1 = c.timerStep) ∧ (j + 1 = c.timerStep → countsToMatch r = c.timerStep) := by
  have before := timerAfter_wdFire hc start j
  have after := timerAfter_wdFire hc start (j + 1)
  have last_iff : c.timerStep ∣ j + 1 ↔ j + 1 = c.timerStep :=
    ⟨fun multiple => Nat.le_antisymm hj (Nat.le_of_dvd (Nat.succ_pos j) multiple), fun h => h ▸ Nat.dvd_refl _⟩
  have match_iff : MatchNow (cyclesOf (wordsOf .tmr j) b) ↔ j + 1 = c.timerStep :=
    (before.matchNow_iff hc).trans last_iff
  refine ⟨?_, fun last => ?_⟩
  · rw [cyclesOf_wordsOf_succ, cycleOf, tmr_wdIrq]
    exact (Bool.or_false _).trans (decide_eq_decide.mpr match_iff)
  · rw [last] at after ⊢
    exact after.countsToMatch_of_step

/-! ## One key -/

/-- The words of `KEY1` or `KEY2`. -/
abbrev keyWords (c : Config) (d : Bool) : List Stim := if d then key1 c else key2 c

/-- The two halves of a key. -/
theorem keyWords_eq (c : Config) (d : Bool) :
    keyWords c d = wordsOf (.poll d (!d)) c.depth ++ wordsOf (.poll false false) c.depth := by
  rw [← pressWords_eq]
  cases d with
  | false => rfl
  | true => rfl

/-- A key up to its last word: its digit is confirmed and its release is due, and the rest of the block is that of
the start but for the indicator. -/
theorem cyclesOf_key (hc : c.wf = true) (noStrobe : b.fb = .none) (notBoot : b.phase ≠ .boot)
    (rest : AtRest false b) (d : Bool) :
    ∃ (h : BitVec c.depth) (x : VisualState) (o : Outputs) (r : Block c),
      r = { b with hist := h, pressed := true, keyDown := d, ind := x, out := o } ∧
      ReleaseNow r false false ∧ cyclesOf (keyWords c d) b = cycleOf (.poll false false) r := by
  obtain ⟨depth_pos, -⟩ := wf_parts hc
  obtain ⟨n, last⟩ : ∃ n, n + 1 = c.depth := ⟨c.depth - 1, by omega⟩
  obtain ⟨⟨x, o, held⟩, -⟩ := cyclesOf_press (k1 := d) (k2 := !d) noStrobe notBoot rest (by simp) last
  obtain ⟨⟨x', o', onlySampled⟩, release⟩ := cyclesOf_beforeRelease
    (b := cyclesOf (wordsOf (.poll d (!d)) (n + 1)) b) (by rw [held]; exact noStrobe)
    (by rw [held]; exact notBoot) (by rw [held]; exact ⟨rfl, rfl⟩) last
  refine ⟨sampled false n (BitVec.allOnes c.depth), x', o', _, ?_, release, ?_⟩
  · rw [onlySampled, held]
  · rw [keyWords_eq, cyclesOf_append, ← last, cyclesOf_wordsOf_succ (.poll false false)]

/-- A key in RUN, below the sixth entry, makes one entry and changes nothing else (R92). -/
theorem registers_cyclesOf_key (hc : c.wf = true) (run : b.phase = .run) (noStrobe : b.fb = .none)
    (rest : AtRest false b) (below : b.count.val < 5) (d : Bool) :
    registers (cyclesOf (keyWords c d) b) = registers { b with
      keyDown := d, acc := shiftAcc b.acc d, count := b.count + 1,
      gate := true, ticks := 0#8, ind := backgroundShown b.mode } := by
  obtain ⟨h, x, o, r, rfl, release, words⟩ := cyclesOf_key hc noStrobe (by simp [run]) rest d
  have entry := poll_run_entry
    (b := beginCycle { b with hist := h, pressed := true, keyDown := d, ind := x, out := o })
    noStrobe run release below
  have emptied : histAfter
      (beginCycle { b with hist := h, pressed := true, keyDown := d, ind := x, out := o }) false false =
      b.hist := release.1.trans rest.hist.symm
  rw [words, cycleOf, entry, emptied, ← rest.pressed]
  rfl

/-! ## Six keys -/

/-- A running block at rest with `n` entries made, `a` in the accumulator. -/
structure Entering (m : Mode) (st : Memory) (n : Nat) (a : Byte) (b : Block c) : Prop where
  run : b.phase = .run
  mode : b.mode = m
  noStrobe : b.fb = .none
  rest : AtRest false b
  store : b.store = st
  count : b.count.val = n
  acc : b.acc = a

variable {m : Mode} {st : Memory} {n : Nat} {a : Byte}

theorem Entering.key (hc : c.wf = true) (h : Entering m st n a b) (below : n < 5) (d : Bool) :
    Entering m st (n + 1) (shiftAcc a d) (cyclesOf (keyWords c d) b) := by
  have below' : b.count.val < 5 := h.count ▸ below
  have counted : (b.count + 1).val = b.count.val + 1 := Fin.val_add_one_of_lt below'
  have same := registers_cyclesOf_key hc h.run h.noStrobe h.rest below' d
  exact
    { run := (congrArg Block.phase same).trans h.run
      mode := (congrArg Block.mode same).trans h.mode
      noStrobe := (congrArg Block.fb same).trans h.noStrobe
      rest := ⟨(congrArg Block.hist same).trans h.rest.hist, (congrArg Block.pressed same).trans h.rest.pressed⟩
      store := (congrArg Block.store same).trans h.store
      count := (congrArg (·.count.val) same).trans (counted.trans (congrArg (· + 1) h.count))
      acc := (congrArg Block.acc same).trans (congrArg (shiftAcc · d) h.acc) }

/-- Up to five keys shift their digits in. -/
theorem Entering.keys (hc : c.wf = true) (ds : List Bool) (h : Entering m st n a b)
    (below : n + ds.length ≤ 5) :
    Entering m st (n + ds.length) (ds.foldl shiftAcc a) (cyclesOf (keys c ds) b) := by
  induction ds generalizing n a b with
  | nil => exact h
  | cons d ds ih =>
    rw [List.length_cons] at below ⊢
    have first := h.key hc (by omega) d
    have others := ih first (by omega)
    have words : Machine.keys c (d :: ds) = keyWords c d ++ Machine.keys c ds := List.flatMap_cons
    rw [words, cyclesOf_append, List.foldl_cons, show n + (ds.length + 1) = n + 1 + ds.length by omega]
    exact others

/-- A running block whose coming `POLL` confirms the release of the sixth digit, the code then `v`. -/
structure Completing (m : Mode) (st : Memory) (v : Byte) (r : Block c) : Prop where
  run : r.phase = .run
  mode : r.mode = m
  noStrobe : r.fb = .none
  release : ReleaseNow r false false
  sixth : r.count.val = 5
  store : r.store = st
  code : accAfter r = v

/-- Over five entries the last word of a key completes the code. -/
theorem Entering.sixthKey (hc : c.wf = true) (h : Entering m st 5 a b) (d : Bool) :
    ∃ r : Block c, Completing m st (shiftAcc a d) r ∧ cyclesOf (keyWords c d) b = poll false false r := by
  obtain ⟨h', x, o, r, rfl, release, words⟩ := cyclesOf_key hc h.noStrobe (by simp [h.run]) h.rest d
  exact ⟨beginCycle { b with hist := h', pressed := true, keyDown := d, ind := x, out := o },
    ⟨h.run, h.mode, h.noStrobe, release, h.count, h.store, congrArg (shiftAcc · d) h.acc⟩, words⟩

set_option maxRecDepth 100000 in
/-- Six digits shifted in under the marker stand below it, the first entered highest (R80). -/
theorem shiftAcc_six : ∀ (m : BitVec 2) (d1 d2 d3 d4 d5 d6 : Bool),
    [d1, d2, d3, d4, d5, d6].foldl shiftAcc (m.setWidth 8) =
      m ++ BitVec.ofBool d1 ++ BitVec.ofBool d2 ++ BitVec.ofBool d3 ++ BitVec.ofBool d4 ++
        BitVec.ofBool d5 ++ BitVec.ofBool d6 := by decide

/-- Six keys from a block at rest end at the completion of their marked byte. -/
theorem Entering.sixKeys (hc : c.wf = true) (h : Entering m st 0 c.init b) (d1 d2 d3 d4 d5 d6 : Bool) :
    ∃ r : Block c, Completing m st (markedCode c d1 d2 d3 d4 d5 d6) r ∧
      cyclesOf (Machine.keys c [d1, d2, d3, d4, d5, d6]) b = poll false false r := by
  have five := h.keys hc [d1, d2, d3, d4, d5] (by simp)
  obtain ⟨r, completing, word⟩ := five.sixthKey hc d6
  have words : Machine.keys c [d1, d2, d3, d4, d5, d6] =
      Machine.keys c [d1, d2, d3, d4, d5] ++ keyWords c d6 := by simp [Machine.keys]
  have code : shiftAcc ([d1, d2, d3, d4, d5].foldl shiftAcc c.init) d6 = markedCode c d1 d2 d3 d4 d5 d6 :=
    shiftAcc_six c.marker d1 d2 d3 d4 d5 d6
  exact ⟨r, code ▸ completing, by rw [words, cyclesOf_append, word]⟩

/-- A block that meets R42 with no entry made has only the marker in its accumulator (I6). -/
theorem entering_of_inv (inv : Inv ⟨c, b, q⟩) (run : b.phase = .run) (noStrobe : b.fb = .none)
    (hist : b.hist = 0#c.depth) (pressed : b.pressed = false) (count : b.count = 0) :
    Entering b.mode b.store 0 c.init b := by
  have marker := inv.invariants.i6
  simp only [count] at marker
  exact ⟨run, rfl, noStrobe, ⟨hist, pressed⟩, rfl, by simp [count], by simpa using marker⟩

/-! ## The obligations -/

/-- Settles O43: bit by bit, each of the `N` newest samples is the one shifted in. -/
theorem equalSamplesFillTheHistory : Obligations.EqualSamplesFillTheHistory := by
  unfold Obligations.EqualSamplesFillTheHistory
  exact fun c h s => sampled_depth s h

/-- Settles O44: before its last word each sequence only samples or counts. -/
theorem pseudoOperationsActAtTheirLastWord : Obligations.PseudoOperationsActAtTheirLastWord := by
  unfold Obligations.PseudoOperationsActAtTheirLastWord
  intro c b q hc
  refine ⟨fun k j noStrobe notBoot hist pressed hj => ⟨_, afterWords_eq_next hc b q _, ?press⟩,
    fun j noStrobe notBoot hist pressed hj => ⟨_, afterWords_eq_next hc b q _, ?release⟩,
    fun j start hj => ⟨_, afterWords_eq_next hc b q _, ?wdFire⟩⟩
  case press =>
    rw [pressWords_eq, take_wordsOf _ hj]
    exact cyclesOf_press_word noStrobe notBoot ⟨hist, pressed⟩ k hj
  case release =>
    rw [release, rel, take_wordsOf _ hj]
    exact cyclesOf_release_word noStrobe notBoot ⟨hist, pressed⟩ hj
  case wdFire =>
    rw [wdFire, take_wordsOf _ hj]
    exact cyclesOf_wdFire_word hc start hj

/-- Settles O45: the release of the key makes the entry, at its last word. -/
theorem keyMakesOneEntry : Obligations.KeyMakesOneEntry := by
  unfold Obligations.KeyMakesOneEntry
  intro c b q d hc run noStrobe hist pressed below
  exact ⟨_, afterWords_eq_next hc b q _, registers_cyclesOf_key hc run noStrobe ⟨hist, pressed⟩ below d⟩

/-- Settles O46: five entries, and the sixth completes the code and saves it. -/
theorem sixEntriesSetTheCode : Obligations.SixEntriesSetTheCode := by
  unfold Obligations.SixEntriesSetTheCode
  intro c b q d1 d2 d3 d4 d5 d6 inv run unlocked noStrobe hist pressed count
  obtain ⟨r, h, words⟩ :=
    (entering_of_inv inv run noStrobe hist pressed count).sixKeys inv.cfgWf d1 d2 d3 d4 d5 d6
  have canonical : Memory.wf c.nv0 r.store = true := h.store.symm ▸ inv.storeWf
  refine ⟨_, afterWords_eq_next inv.cfgWf b q _, ?_⟩
  rw [words, poll_run_lock h.noStrobe h.run h.release h.sixth (h.mode.trans unlocked)]
  exact ⟨h.run, rfl, h.noStrobe, (nv_write canonical).trans h.code, h.release.1, rfl, rfl, rfl, rfl⟩

/-- Settles O47: five entries, and the sixth completes the attempt, which is compared with the stored byte. -/
theorem sixEntriesInLockedMatchOrFail : Obligations.SixEntriesInLockedMatchOrFail := by
  unfold Obligations.SixEntriesInLockedMatchOrFail
  intro c b q d1 d2 d3 d4 d5 d6 inv run locked noStrobe hist pressed count
  obtain ⟨r, h, words⟩ :=
    (entering_of_inv inv run noStrobe hist pressed count).sixKeys inv.cfgWf d1 d2 d3 d4 d5 d6
  have canonical : Memory.wf c.nv0 r.store = true := h.store.symm ▸ inv.storeWf
  have nv : r.nv = b.nv := nv_congr h.store
  refine ⟨_, afterWords_eq_next inv.cfgWf b q _, ?_⟩
  rw [words]
  by_cases equal : r.nv = accAfter r
  · rw [poll_run_match h.noStrobe h.run h.release h.sixth (h.mode.trans locked) equal]
    exact ⟨h.run, rfl, rfl, rfl, fun _ => ⟨rfl, h.noStrobe, nv_write canonical⟩,
      fun differ => absurd (nv.symm.trans (equal.trans h.code)) differ⟩
  · rw [poll_run_mismatch h.noStrobe h.run h.release h.sixth (h.mode.trans locked) equal]
    exact ⟨h.run, rfl, rfl, rfl, fun same => absurd (nv.trans (same.trans h.code.symm)) equal,
      fun _ => ⟨h.mode.trans locked, rfl, nv, rfl⟩⟩

end Sys2Proof.Machine
end
